-- ==== Sys2Proof/Word.lean ====
section
/-! DEFINITION. The bit-vector types of the block and the two small enumerations an opcode or ModRM byte splits into. -/

namespace Sys2Proof

/-- A byte: 8 bits (00_scope.md R9). -/
abbrev Byte := BitVec 8

/-- A word: 16 bits (00_scope.md R9). -/
abbrev Word := BitVec 16

/-- A linear address: 20 bits (20_memory.md R80). -/
abbrev Addr := BitVec 20

/-- The operand width bit w: byte (w = 0) or word (w = 1) (20_memory.md R89, 30_encoding.md R145). -/
inductive Width where
  | byte
  | word
  deriving DecidableEq, Repr

/-- A 2-bit field: the top field of an opcode byte, or the ModRM `mod` field (30_encoding.md R160). -/
inductive Quad where
  | q0 | q1 | q2 | q3
  deriving DecidableEq, Repr

/-- A 3-bit field: the middle and low fields of an opcode byte, or the ModRM `reg` and `rm` fields
(30_encoding.md R146, R160). -/
inductive Oct where
  | o0 | o1 | o2 | o3 | o4 | o5 | o6 | o7
  deriving DecidableEq, Repr

end Sys2Proof
end

