-- ==== Sys2Proof/Syntax.lean ====
section
/-! DEFINITION. The instructions as the decoder names them. One constructor for each mnemonic and operand
shape of spec/opcode_table.json; rows that differ only in an operand field (register, width, segment, alias
opcode) share a constructor and differ in its arguments. -/

namespace Sys2Proof

/-- The 16-bit general registers, in index order (10_state.md R31, R33). -/
inductive Reg16 where
  | ax | cx | dx | bx | sp | bp | si | di
  deriving DecidableEq, Repr

/-- The 8-bit registers, in index order: the halves of the dividable registers (10_state.md R32, R33). -/
inductive Reg8 where
  | al | cl | dl | bl | ah | ch | dh | bh
  deriving DecidableEq, Repr

/-- The segment registers, in index order (10_state.md R36). -/
inductive SReg where
  | es | cs | ss | ds
  deriving DecidableEq, Repr

/-- One byte of the prefix chain (30_encoding.md R150). -/
inductive Pfx where
  | seg (s : SReg)
  | repne
  | rep
  deriving DecidableEq, Repr

/-- The repeat prefix in force, the `rep` field of the decoded record (30_encoding.md R140, R154). -/
inductive RepKind where
  | rep
  | repne
  deriving DecidableEq, Repr

/-- The base and index combinations of the `rm` field (30_encoding.md R162). -/
inductive Base where
  | bxsi | bxdi | bpsi | bpdi | si | di | bp | bx
  deriving DecidableEq, Repr

/-- A ModRM memory operand as it is encoded (30_encoding.md R161, R162): no displacement (mod = 00), the
direct address (mod = 00, rm = 110), an 8-bit displacement (mod = 01) or a 16-bit one (mod = 10). -/
inductive MemRef where
  | noDisp (b : Base)
  | direct (a : Word)
  | disp8 (b : Base) (d : Byte)
  | disp16 (b : Base) (d : Word)
  deriving DecidableEq, Repr

/-- The E operand: a register (mod = 11) or a memory operand (30_encoding.md R164). -/
inductive Ea (ρ : Type) where
  | reg (r : ρ)
  | mem (m : MemRef)
  deriving DecidableEq, Repr

/-- The ten operand forms of ADD, OR, ADC, SBB, AND, SUB, XOR and CMP (41_arith_logic.md R271).
`ebIbAlias` is opcode 0x82, the alias of 0x80 (30_encoding.md R167); `evIbs` is 0x83. -/
inductive AluForm where
  | ebGb (e : Ea Reg8) (g : Reg8)
  | evGv (e : Ea Reg16) (g : Reg16)
  | gbEb (g : Reg8) (e : Ea Reg8)
  | gvEv (g : Reg16) (e : Ea Reg16)
  | alIb (i : Byte)
  | axIw (i : Word)
  | ebIb (e : Ea Reg8) (i : Byte)
  | ebIbAlias (e : Ea Reg8) (i : Byte)
  | evIw (e : Ea Reg16) (i : Word)
  | evIbs (e : Ea Reg16) (i : Byte)
  deriving DecidableEq, Repr

/-- The six operand forms of TEST (41_arith_logic.md R280). -/
inductive TestForm where
  | ebGb (e : Ea Reg8) (g : Reg8)
  | evGv (e : Ea Reg16) (g : Reg16)
  | alIb (i : Byte)
  | axIw (i : Word)
  | ebIb (e : Ea Reg8) (i : Byte)
  | evIw (e : Ea Reg16) (i : Word)
  deriving DecidableEq, Repr

/-- The operand forms of INC and DEC (41_arith_logic.md R281, R282). -/
inductive IncForm where
  | rw (r : Reg16)
  | eb (e : Ea Reg8)
  | ev (e : Ea Reg16)
  deriving DecidableEq, Repr

/-- The operand forms of NEG and NOT (41_arith_logic.md R283, R284). -/
inductive UnaryForm where
  | eb (e : Ea Reg8)
  | ev (e : Ea Reg16)
  deriving DecidableEq, Repr

/-- The register and memory forms of MOV (42_data_transfer.md R321). -/
inductive MovForm where
  | ebGb (e : Ea Reg8) (g : Reg8)
  | evGv (e : Ea Reg16) (g : Reg16)
  | gbEb (g : Reg8) (e : Ea Reg8)
  | gvEv (g : Reg16) (e : Ea Reg16)
  deriving DecidableEq, Repr

/-- The register-or-memory, immediate forms of MOV (42_data_transfer.md R328). -/
inductive MovImmForm where
  | ebIb (e : Ea Reg8) (i : Byte)
  | evIw (e : Ea Reg16) (i : Word)
  deriving DecidableEq, Repr

/-- The ModRM forms of XCHG (42_data_transfer.md R330). -/
inductive XchgForm where
  | ebGb (e : Ea Reg8) (g : Reg8)
  | evGv (e : Ea Reg16) (g : Reg16)
  deriving DecidableEq, Repr

/-- The four refused shift and rotate opcodes 0xD0 to 0xD3 (30_encoding.md R192, R195). -/
inductive ShiftForm where
  | eb1 | ev1 | ebCl | evCl
  deriving DecidableEq, Repr

/-- What makes an encoding unknown (30_encoding.md R191): its first byte, or, for a group or memory-only
opcode, that byte and the ModRM byte `m` that follows, which decode looks at and does not consume (R181). -/
inductive UnknownEnc where
  | byte (b : Byte)
  | group (op m : Byte)
  deriving DecidableEq, Repr

/-- The `kind` of a decoded instruction (30_encoding.md R140): one value for each row of spec/opcode_table.json, named by
the row's opcode and, for a group, its `reg` field, and GENERIC (log entry 16). -/
inductive Kind where
  | row (opcode : Byte) (ext : Option Oct)
  | generic
  deriving DecidableEq, Repr

/-- A decoded instruction: its prefix chain `p`, first prefix first, and its operands. -/
inductive Instr where
  -- arithmetic and logic (41_arith_logic.md)
  /-- ADD, R272 -/
  | add (p : List Pfx) (f : AluForm)
  /-- OR, R273 -/
  | lor (p : List Pfx) (f : AluForm)
  /-- ADC, R274 -/
  | adc (p : List Pfx) (f : AluForm)
  /-- SBB, R275 -/
  | sbb (p : List Pfx) (f : AluForm)
  /-- AND, R276 -/
  | land (p : List Pfx) (f : AluForm)
  /-- SUB, R277 -/
  | sub (p : List Pfx) (f : AluForm)
  /-- XOR, R278 -/
  | lxor (p : List Pfx) (f : AluForm)
  /-- CMP, R279 -/
  | cmp (p : List Pfx) (f : AluForm)
  /-- TEST, R280 -/
  | test (p : List Pfx) (f : TestForm)
  /-- INC, R281 -/
  | inc (p : List Pfx) (f : IncForm)
  /-- DEC, R282 -/
  | dec (p : List Pfx) (f : IncForm)
  /-- NEG, R283 -/
  | neg (p : List Pfx) (f : UnaryForm)
  /-- NOT, R284 -/
  | lnot (p : List Pfx) (f : UnaryForm)
  /-- CBW, R285 -/
  | cbw (p : List Pfx)
  /-- CWD, R286 -/
  | cwd (p : List Pfx)
  -- data transfer (42_data_transfer.md)
  /-- MOV between a register and a register or memory, R321 -/
  | movRm (p : List Pfx) (f : MovForm)
  /-- MOV Ew,Sw, R322 -/
  | movFromSeg (p : List Pfx) (e : Ea Reg16) (s : SReg)
  /-- MOV Sw,Ew, R323 -/
  | movToSeg (p : List Pfx) (s : SReg) (e : Ea Reg16)
  /-- MOV AL,Ow and MOV AX,Ow, R324 -/
  | movAccMoffs (p : List Pfx) (w : Width) (off : Word)
  /-- MOV Ow,AL and MOV Ow,AX, R325 -/
  | movMoffsAcc (p : List Pfx) (w : Width) (off : Word)
  /-- MOV rb,Ib, R326 -/
  | movRbIb (p : List Pfx) (r : Reg8) (i : Byte)
  /-- MOV rw,Iw, R327 -/
  | movRwIw (p : List Pfx) (r : Reg16) (i : Word)
  /-- MOV Eb,Ib and MOV Ev,Iw, R328 -/
  | movRmImm (p : List Pfx) (f : MovImmForm)
  /-- XCHG Eb,Gb and XCHG Ev,Gv, R330 -/
  | xchgRm (p : List Pfx) (f : XchgForm)
  /-- XCHG AX,rw with rw not AX, R330 -/
  | xchgAx (p : List Pfx) (r : Reg16)
  /-- NOP (XCHG AX,AX), R331 -/
  | nop (p : List Pfx)
  /-- LEA, R332 -/
  | lea (p : List Pfx) (g : Reg16) (m : MemRef)
  /-- LDS, R333 -/
  | lds (p : List Pfx) (g : Reg16) (m : MemRef)
  /-- LES, R334 -/
  | les (p : List Pfx) (g : Reg16) (m : MemRef)
  /-- XLAT, R335 -/
  | xlat (p : List Pfx)
  /-- PUSH rw, R340 and R342 -/
  | pushRw (p : List Pfx) (r : Reg16)
  /-- PUSH Sr, R341 -/
  | pushSr (p : List Pfx) (s : SReg)
  /-- PUSH Ev, R343 -/
  | pushRm (p : List Pfx) (e : Ea Reg16)
  /-- POP rw, R344 -/
  | popRw (p : List Pfx) (r : Reg16)
  /-- POP Sr, R345 -/
  | popSr (p : List Pfx) (s : SReg)
  /-- POP Ev, R346 -/
  | popRm (p : List Pfx) (e : Ea Reg16)
  /-- PUSHF, R347 -/
  | pushf (p : List Pfx)
  /-- POPF, R348 -/
  | popf (p : List Pfx)
  /-- LAHF, R349 -/
  | lahf (p : List Pfx)
  /-- SAHF, R352 -/
  | sahf (p : List Pfx)
  /-- IN AL,Ib and IN AX,Ib, R350 -/
  | inImm (p : List Pfx) (w : Width) (port : Byte)
  /-- IN AL,DX and IN AX,DX, R350 -/
  | inDx (p : List Pfx) (w : Width)
  /-- OUT Ib,AL and OUT Ib,AX, R351 -/
  | outImm (p : List Pfx) (w : Width) (port : Byte)
  /-- OUT DX,AL and OUT DX,AX, R351 -/
  | outDx (p : List Pfx) (w : Width)
  -- control transfer (43_control_transfer.md)
  /-- JO, R372 -/
  | jo (p : List Pfx) (d : Byte)
  /-- JNO, R372 -/
  | jno (p : List Pfx) (d : Byte)
  /-- JB, R372 -/
  | jb (p : List Pfx) (d : Byte)
  /-- JNB, R372 -/
  | jnb (p : List Pfx) (d : Byte)
  /-- JZ, R372 -/
  | jz (p : List Pfx) (d : Byte)
  /-- JNZ, R372 -/
  | jnz (p : List Pfx) (d : Byte)
  /-- JBE, R372 -/
  | jbe (p : List Pfx) (d : Byte)
  /-- JA, R372 -/
  | ja (p : List Pfx) (d : Byte)
  /-- JS, R372 -/
  | js (p : List Pfx) (d : Byte)
  /-- JNS, R372 -/
  | jns (p : List Pfx) (d : Byte)
  /-- JP, R372 -/
  | jp (p : List Pfx) (d : Byte)
  /-- JNP, R372 -/
  | jnp (p : List Pfx) (d : Byte)
  /-- JL, R372 -/
  | jl (p : List Pfx) (d : Byte)
  /-- JGE, R372 -/
  | jge (p : List Pfx) (d : Byte)
  /-- JLE, R372 -/
  | jle (p : List Pfx) (d : Byte)
  /-- JG, R372 -/
  | jg (p : List Pfx) (d : Byte)
  /-- JMP Jb, R373 -/
  | jmpShort (p : List Pfx) (d : Byte)
  /-- JMP Jw, R374 -/
  | jmpNear (p : List Pfx) (d : Word)
  /-- JMP Ap, R375 -/
  | jmpFar (p : List Pfx) (off sel : Word)
  /-- JMP Ev, R376 -/
  | jmpRm (p : List Pfx) (e : Ea Reg16)
  /-- JMP Mp, R377 -/
  | jmpMem (p : List Pfx) (m : MemRef)
  /-- LOOP, R378 -/
  | loop (p : List Pfx) (d : Byte)
  /-- LOOPE, R379 -/
  | loope (p : List Pfx) (d : Byte)
  /-- LOOPNE, R380 -/
  | loopne (p : List Pfx) (d : Byte)
  /-- JCXZ, R381 -/
  | jcxz (p : List Pfx) (d : Byte)
  /-- CALL Jw, R382 -/
  | callNear (p : List Pfx) (d : Word)
  /-- CALL Ap, R383 -/
  | callFar (p : List Pfx) (off sel : Word)
  /-- CALL Ev, R384 -/
  | callRm (p : List Pfx) (e : Ea Reg16)
  /-- CALL Mp, R385 -/
  | callMem (p : List Pfx) (m : MemRef)
  /-- RET, R386 -/
  | ret (p : List Pfx)
  /-- RET Iw, R387 -/
  | retImm (p : List Pfx) (i : Word)
  /-- RETF, R388 -/
  | retf (p : List Pfx)
  /-- RETF Iw, R389 -/
  | retfImm (p : List Pfx) (i : Word)
  /-- INT Ib, R390 -/
  | int (p : List Pfx) (n : Byte)
  /-- INT3, R391 -/
  | int3 (p : List Pfx)
  /-- INTO, R392 -/
  | into (p : List Pfx)
  /-- IRET, R393 -/
  | iret (p : List Pfx)
  -- processor control (44_processor_control.md)
  /-- CLC, R421 -/
  | clc (p : List Pfx)
  /-- STC, R422 -/
  | stc (p : List Pfx)
  /-- CMC, R423 -/
  | cmc (p : List Pfx)
  /-- CLI, R424 -/
  | cli (p : List Pfx)
  /-- STI, R425 -/
  | sti (p : List Pfx)
  /-- CLD, R426 -/
  | cld (p : List Pfx)
  /-- STD, R427 -/
  | std (p : List Pfx)
  /-- HLT, R428 -/
  | hlt (p : List Pfx)
  -- the refused encodings (30_encoding.md R192)
  /-- DAA 0x27 -/
  | daa (p : List Pfx)
  /-- DAS 0x2F -/
  | das (p : List Pfx)
  /-- AAA 0x37 -/
  | aaa (p : List Pfx)
  /-- AAS 0x3F -/
  | aas (p : List Pfx)
  /-- WAIT 0x9B -/
  | wait (p : List Pfx)
  /-- MOVSB 0xA4 -/
  | movsb (p : List Pfx)
  /-- MOVSW 0xA5 -/
  | movsw (p : List Pfx)
  /-- CMPSB 0xA6 -/
  | cmpsb (p : List Pfx)
  /-- CMPSW 0xA7 -/
  | cmpsw (p : List Pfx)
  /-- STOSB 0xAA -/
  | stosb (p : List Pfx)
  /-- STOSW 0xAB -/
  | stosw (p : List Pfx)
  /-- LODSB 0xAC -/
  | lodsb (p : List Pfx)
  /-- LODSW 0xAD -/
  | lodsw (p : List Pfx)
  /-- SCASB 0xAE -/
  | scasb (p : List Pfx)
  /-- SCASW 0xAF -/
  | scasw (p : List Pfx)
  /-- SHIFT_ROTATE 0xD0 to 0xD3 -/
  | shiftRotate (p : List Pfx) (f : ShiftForm)
  /-- AAM 0xD4 -/
  | aam (p : List Pfx)
  /-- AAD 0xD5 -/
  | aad (p : List Pfx)
  /-- ESC 0xD8 to 0xDF, its low three opcode bits -/
  | esc (p : List Pfx) (k : Oct)
  /-- LOCK 0xF0 -/
  | lock (p : List Pfx)
  /-- MUL 0xF6 or 0xF7 with reg = 4; the mod and rm fields, which the refusal does not look at -/
  | mul (p : List Pfx) (w : Width) (md : Quad) (rm : Oct)
  /-- IMUL 0xF6 or 0xF7 with reg = 5 -/
  | imul (p : List Pfx) (w : Width) (md : Quad) (rm : Oct)
  /-- DIV 0xF6 or 0xF7 with reg = 6 -/
  | div (p : List Pfx) (w : Width) (md : Quad) (rm : Oct)
  /-- IDIV 0xF6 or 0xF7 with reg = 7 -/
  | idiv (p : List Pfx) (w : Width) (md : Quad) (rm : Oct)
  -- a prefix byte in the opcode position, after four prefixes (30_encoding.md R152)
  /-- SEG 0x26, 0x2E, 0x36, 0x3E -/
  | segByte (p : List Pfx) (s : SReg)
  /-- REPNE 0xF2 -/
  | repneByte (p : List Pfx)
  /-- REP 0xF3 -/
  | repByte (p : List Pfx)
  /-- (unknown): the generic instruction of an unknown encoding (30_encoding.md R180, R191) -/
  | generic (p : List Pfx) (u : UnknownEnc)
  deriving DecidableEq, Repr

end Sys2Proof
end

