-- ==== Sys2Proof/Config.lean ====
section
/-! DEFINITION. The parameters of 00_scope.md R7 and the free values (the spec's `draw()`, 93 part 1).
A parameter with one value is a constant; an OPEN parameter that a rule reads is a field of `Params`, which
State holds fixed (log entry 4). -/

namespace Sys2Proof

/-- `PUSH_SP_VALUE` (42_data_transfer.md R342). -/
inductive PushSpValue where
  | new
  | old
  deriving DecidableEq, Repr

/-- `TF_MODE` (60_exceptions.md R498). -/
inductive TfMode where
  | refuse
  | int1
  | ignore
  deriving DecidableEq, Repr

/-- `UNKNOWN_MODE` (30_encoding.md R182). -/
inductive UnknownMode where
  | noopReport
  | fault
  deriving DecidableEq, Repr

/-- The OPEN parameters that rules of the tick read (00_scope.md R7). -/
structure Params where
  /-- `FLAGS_RESERVED_IMAGE` (10_state.md R43) -/
  flagsReserved : Word
  /-- `PUSH_SP_VALUE` -/
  pushSp : PushSpValue
  /-- `TF_MODE` -/
  tfMode : TfMode
  /-- `UNKNOWN_MODE` -/
  unknownMode : UnknownMode
  deriving DecidableEq, Repr

/-- `PQ_CAPACITY` (00_scope.md R7). -/
def Config.pqCapacity : Nat := 6

/-- `MAX_PREFIXES` (00_scope.md R7). -/
def Config.maxPrefixes : Nat := 4

/-- `ROM_BASE` (00_scope.md R7, 20_memory.md R86). -/
def Config.romBase : Nat := 0xF6000

/-- The number of memory bytes, 2^20 (20_memory.md R83). -/
def Config.memSize : Nat := 0x100000

/-- Default of `RESET_CS` (00_scope.md R7). -/
def Config.resetCs : Word := 0xFFFF

/-- Default of `RESET_IP` (00_scope.md R7). -/
def Config.resetIp : Word := 0x0000

/-- Default of `DQ_DEPTH` (00_scope.md R7). -/
def Config.dqDepth : Nat := 1

/-- The defaults of the OPEN parameters (00_scope.md R7). -/
def Config.defaultParams : Params :=
  { flagsReserved := 0xF002, pushSp := .new, tfMode := .refuse, unknownMode := .noopReport }

/-- The flag positions of the image (10_state.md R40): bits 0, 2, 4, 6, 7, 8, 9, 10 and 11. -/
def Config.namedFlagBits : Word := 0x0FD5

/-- A legal parameter value: `FLAGS_RESERVED_IMAGE` is 0 at the nine named positions (10_state.md R43). -/
def Params.legal (p : Params) : Bool := p.flagsReserved &&& Config.namedFlagBits == 0

/-- What a byte of memory that nothing has written or loaded reads as.
DESIGN CHOICE (log entry 3): the spec leaves it a launch input (70_reset_and_hazards.md R531); unsafe. -/
def Config.unlistedByte : Byte := 0

/-- Free value: AF after AND, OR, XOR and TEST, one per draw (40_alu.md R238; log entry 5). -/
opaque Config.afDraw : Nat → Bool

/-- Free value: a byte port's answer, one per draw (20_memory.md R100; log entry 6). -/
opaque Config.portIn8 : Nat → Byte

/-- Free value: a word port's answer, one per draw (20_memory.md R100; log entry 6). -/
opaque Config.portIn16 : Nat → Word

/-- `CLOCKS`: the clock estimate of a kind of instruction (00_scope.md R7, 70_reset_and_hazards.md R550); no rule
reads it (log entry 16). -/
opaque Config.clocks : Kind → Nat

end Sys2Proof
end

