-- ==== Sys2Proof/WellFormed.lean ====
section
/-! DEFINITION. Which terms of `Instr` an encoding can name: the checks the decoder's own types do not make. -/

namespace Sys2Proof

/-- A memory operand an encoding can name: mod = 00 with rm = 110 is the direct address, so no operand has
the base BP and no displacement (30_encoding.md R161, R162). -/
def MemRef.wellFormed : MemRef → Bool
  | .noDisp .bp => false
  | _ => true

/-- An E operand an encoding can name. -/
def Ea.wellFormed {ρ : Type} : Ea ρ → Bool
  | .reg _ => true
  | .mem m => m.wellFormed

/-- The operands of an ALU form. -/
def AluForm.wellFormed : AluForm → Bool
  | .ebGb e _ | .gbEb _ e | .ebIb e _ | .ebIbAlias e _ => e.wellFormed
  | .evGv e _ | .gvEv _ e | .evIw e _ | .evIbs e _ => e.wellFormed
  | .alIb _ | .axIw _ => true

/-- The operands of a TEST form. -/
def TestForm.wellFormed : TestForm → Bool
  | .ebGb e _ | .ebIb e _ => e.wellFormed
  | .evGv e _ | .evIw e _ => e.wellFormed
  | .alIb _ | .axIw _ => true

/-- The operands of an INC or DEC form. -/
def IncForm.wellFormed : IncForm → Bool
  | .rw _ => true
  | .eb e => e.wellFormed
  | .ev e => e.wellFormed

/-- The operand of a NEG or NOT form. -/
def UnaryForm.wellFormed : UnaryForm → Bool
  | .eb e => e.wellFormed
  | .ev e => e.wellFormed

/-- The operands of a MOV form. -/
def MovForm.wellFormed : MovForm → Bool
  | .ebGb e _ | .gbEb _ e => e.wellFormed
  | .evGv e _ | .gvEv _ e => e.wellFormed

/-- The operands of a MOV immediate form. -/
def MovImmForm.wellFormed : MovImmForm → Bool
  | .ebIb e _ => e.wellFormed
  | .evIw e _ => e.wellFormed

/-- The operands of an XCHG form. -/
def XchgForm.wellFormed : XchgForm → Bool
  | .ebGb e _ => e.wellFormed
  | .evGv e _ => e.wellFormed

/-- The unknown first bytes (30_encoding.md R191). -/
def isUnknownByte (b : Byte) : Bool :=
  b == 0x0F || b &&& 0xF0 == 0x60 || b == 0xC0 || b == 0xC1 || b == 0xC8 || b == 0xC9 || b == 0xD6 || b == 0xF1

/-- The unknown sub-encodings of the group and memory-only opcodes (30_encoding.md R191), by the `reg` and
`mod` fields of the second byte. -/
def isUnknownGroup (op m : Byte) : Bool :=
  let reg := (m.toNat / 8) % 8
  let md := m.toNat / 64
  if op == 0x8C then 4 ≤ reg
  else if op == 0x8E then reg == 1 || 4 ≤ reg
  else if op == 0x8F || op == 0xC6 || op == 0xC7 then reg != 0
  else if op == 0xF6 || op == 0xF7 then reg == 1
  else if op == 0xFE then 2 ≤ reg
  else if op == 0xFF then reg == 7 || ((reg == 3 || reg == 5) && md == 3)
  else if op == 0x8D || op == 0xC4 || op == 0xC5 then md == 3
  else false

/-- An unknown encoding of R191. -/
def UnknownEnc.wellFormed : UnknownEnc → Bool
  | .byte b => isUnknownByte b
  | .group op m => isUnknownGroup op m

/-- The prefix chain of an instruction. -/
def Instr.pfx : Instr → List Pfx
  | .add p _ | .lor p _ | .adc p _ | .sbb p _
  | .land p _ | .sub p _ | .lxor p _ | .cmp p _
  | .test p _ | .inc p _ | .dec p _ | .neg p _
  | .lnot p _ | .cbw p | .cwd p | .movRm p _
  | .movFromSeg p _ _ | .movToSeg p _ _ | .movAccMoffs p _ _ | .movMoffsAcc p _ _
  | .movRbIb p _ _ | .movRwIw p _ _ | .movRmImm p _ | .xchgRm p _
  | .xchgAx p _ | .nop p | .lea p _ _ | .lds p _ _
  | .les p _ _ | .xlat p | .pushRw p _ | .pushSr p _
  | .pushRm p _ | .popRw p _ | .popSr p _ | .popRm p _
  | .pushf p | .popf p | .lahf p | .sahf p
  | .inImm p _ _ | .inDx p _ | .outImm p _ _ | .outDx p _
  | .jo p _ | .jno p _ | .jb p _ | .jnb p _
  | .jz p _ | .jnz p _ | .jbe p _ | .ja p _
  | .js p _ | .jns p _ | .jp p _ | .jnp p _
  | .jl p _ | .jge p _ | .jle p _ | .jg p _
  | .jmpShort p _ | .jmpNear p _ | .jmpFar p _ _ | .jmpRm p _
  | .jmpMem p _ | .loop p _ | .loope p _ | .loopne p _
  | .jcxz p _ | .callNear p _ | .callFar p _ _ | .callRm p _
  | .callMem p _ | .ret p | .retImm p _ | .retf p
  | .retfImm p _ | .int p _ | .int3 p | .into p
  | .iret p | .clc p | .stc p | .cmc p
  | .cli p | .sti p | .cld p | .std p
  | .hlt p | .daa p | .das p | .aaa p
  | .aas p | .wait p | .movsb p | .movsw p
  | .cmpsb p | .cmpsw p | .stosb p | .stosw p
  | .lodsb p | .lodsw p | .scasb p | .scasw p
  | .shiftRotate p _ | .aam p | .aad p | .esc p _
  | .lock p | .mul p _ _ _ | .imul p _ _ _ | .div p _ _ _
  | .idiv p _ _ _ | .segByte p _ | .repneByte p | .repByte p
  | .generic p _ => p

/-- A prefix byte taken as the opcode (30_encoding.md R152). -/
def Instr.isPrefixByte : Instr → Bool
  | .segByte _ _ | .repneByte _ | .repByte _ => true
  | _ => false

/-- The operands of an instruction are ones its encoding can name: MOV CS and POP CS do not exist
(30_encoding.md R191, R201), XCHG AX,AX is NOP (R206), a memory-only form has no register operand by type. -/
def Instr.operandsWellFormed : Instr → Bool
  | .add _ f | .lor _ f | .adc _ f | .sbb _ f | .land _ f | .sub _ f | .lxor _ f | .cmp _ f => f.wellFormed
  | .test _ f => f.wellFormed
  | .inc _ f | .dec _ f => f.wellFormed
  | .neg _ f | .lnot _ f => f.wellFormed
  | .movRm _ f => f.wellFormed
  | .movFromSeg _ e _ => e.wellFormed
  | .movToSeg _ s e => s != .cs && e.wellFormed
  | .movRmImm _ f => f.wellFormed
  | .xchgRm _ f => f.wellFormed
  | .xchgAx _ r => r != .ax
  | .lea _ _ m | .lds _ _ m | .les _ _ m => m.wellFormed
  | .pushRm _ e | .popRm _ e | .jmpRm _ e | .callRm _ e => e.wellFormed
  | .popSr _ s => s != .cs
  | .jmpMem _ m | .callMem _ m => m.wellFormed
  | .generic _ u => u.wellFormed
  | _ => true

/-- A prefix chain the decoder can leave: at most four prefixes, and exactly four before a prefix byte taken
as the opcode (30_encoding.md R151, R152). -/
def Instr.prefixesWellFormed (i : Instr) : Bool :=
  if i.isPrefixByte then i.pfx.length == Config.maxPrefixes else i.pfx.length ≤ Config.maxPrefixes

/-- A term some bytes decode to. -/
def Instr.wellFormed (i : Instr) : Bool := i.operandsWellFormed && i.prefixesWellFormed

end Sys2Proof
end

