-- ==== Sys2Proof/Decode.lean ====
section
/-! DEFINITION. The decoder of 30_encoding.md (R142), total on any bytes, and after it the encoder written from
the same opcode map (R195). Decoding fails in one way only, named `pqUnderflow`: a byte past the end of the
queue is needed (R141). Unknown encodings decode to `generic` (R180), refused ones to their own constructor,
whose meaning refuses (R192). -/

namespace Sys2Proof

/-! ### Bit fields and byte order -/

/-- A 2-bit value as a field. -/
def Quad.ofBits (v : BitVec 2) : Quad :=
  if v = 0 then .q0 else if v = 1 then .q1 else if v = 2 then .q2 else .q3

/-- A field as a number. -/
def Quad.toNat : Quad → Nat
  | .q0 => 0 | .q1 => 1 | .q2 => 2 | .q3 => 3

/-- A 3-bit value as a field. -/
def Oct.ofBits (v : BitVec 3) : Oct :=
  if v = 0 then .o0 else if v = 1 then .o1 else if v = 2 then .o2 else if v = 3 then .o3
  else if v = 4 then .o4 else if v = 5 then .o5 else if v = 6 then .o6 else .o7

/-- A field as a number. -/
def Oct.toNat : Oct → Nat
  | .o0 => 0 | .o1 => 1 | .o2 => 2 | .o3 => 3 | .o4 => 4 | .o5 => 5 | .o6 => 6 | .o7 => 7

/-- Bits 7:6 of a byte (30_encoding.md R160). -/
def top2 (b : Byte) : Quad := Quad.ofBits (b.extractLsb' 6 2)

/-- Bits 5:3 of a byte. -/
def mid3 (b : Byte) : Oct := Oct.ofBits (b.extractLsb' 3 3)

/-- Bits 2:0 of a byte. -/
def low3 (b : Byte) : Oct := Oct.ofBits (b.extractLsb' 0 3)

/-- The byte with these three fields. -/
def octal (x : Quad) (y z : Oct) : Byte := BitVec.ofNat 8 (64 * x.toNat + 8 * y.toNat + z.toNat)

/-- `hi ++ lo` (00_scope.md R10, 20_memory.md R87). -/
def wordOf (lo hi : Byte) : Word := hi ++ lo

/-- The low byte of a word. -/
def loByte (v : Word) : Byte := v.extractLsb' 0 8

/-- The high byte of a word. -/
def hiByte (v : Word) : Byte := v.extractLsb' 8 8

/-- `sext_16` of a byte (00_scope.md R10). -/
def sext16 (b : Byte) : Word := b.signExtend 16

/-- A word's bytes in the instruction stream, low byte first (20_memory.md R87). -/
def leBytes (v : Word) : List Byte := [loByte v, hiByte v]

/-! ### The bitfield matcher (30_encoding.md R131) -/

/-- One character of a bit pattern. -/
inductive PatBit where
  | zero
  | one
  | x
  deriving DecidableEq, Repr

/-- Does one bit match one pattern character? -/
def PatBit.accepts : PatBit → Bool → Bool
  | .zero, b => !b
  | .one, b => b
  | .x, _ => true

/-- An n-character pattern, leftmost character first, matches an n-bit value (30_encoding.md R131). -/
def fieldMatches (pat : List PatBit) (v : Nat) : Bool :=
  match pat with
  | [] => true
  | c :: rest => c.accepts (v.testBit rest.length) && fieldMatches rest v

/-- The pattern's mask: 1 at every fixed position (30_encoding.md R131). -/
def patMask : List PatBit → Nat
  | [] => 0
  | c :: rest => (match c with | .x => 0 | _ => 2 ^ rest.length) + patMask rest

/-- The pattern's match value: its 1 bits (30_encoding.md R131). -/
def patValue : List PatBit → Nat
  | [] => 0
  | c :: rest => (match c with | .one => 2 ^ rest.length | _ => 0) + patValue rest

/-! ### Register, segment and base codes -/

/-- The 16-bit register of an index (10_state.md R33). -/
def Reg16.ofOct : Oct → Reg16
  | .o0 => .ax | .o1 => .cx | .o2 => .dx | .o3 => .bx | .o4 => .sp | .o5 => .bp | .o6 => .si | .o7 => .di

/-- The index of a 16-bit register. -/
def Reg16.code : Reg16 → Oct
  | .ax => .o0 | .cx => .o1 | .dx => .o2 | .bx => .o3 | .sp => .o4 | .bp => .o5 | .si => .o6 | .di => .o7

/-- The 8-bit register of an index (10_state.md R33). -/
def Reg8.ofOct : Oct → Reg8
  | .o0 => .al | .o1 => .cl | .o2 => .dl | .o3 => .bl | .o4 => .ah | .o5 => .ch | .o6 => .dh | .o7 => .bh

/-- The index of an 8-bit register. -/
def Reg8.code : Reg8 → Oct
  | .al => .o0 | .cl => .o1 | .dl => .o2 | .bl => .o3 | .ah => .o4 | .ch => .o5 | .dh => .o6 | .bh => .o7

/-- The segment register of a `reg` field; values 4 to 7 name none (30_encoding.md R148). -/
def SReg.ofOct : Oct → Option SReg
  | .o0 => some .es | .o1 => some .cs | .o2 => some .ss | .o3 => some .ds | _ => none

/-- The index of a segment register. -/
def SReg.code : SReg → Oct
  | .es => .o0 | .cs => .o1 | .ss => .o2 | .ds => .o3

/-- The base and index combination of an `rm` field (30_encoding.md R162). -/
def Base.ofOct : Oct → Base
  | .o0 => .bxsi | .o1 => .bxdi | .o2 => .bpsi | .o3 => .bpdi | .o4 => .si | .o5 => .di | .o6 => .bp | .o7 => .bx

/-- The `rm` field of a base and index combination. -/
def Base.code : Base → Oct
  | .bxsi => .o0 | .bxdi => .o1 | .bpsi => .o2 | .bpdi => .o3 | .si => .o4 | .di => .o5 | .bp => .o6 | .bx => .o7

/-- The E operand with its register renamed. -/
def Ea.map {ρ σ : Type} (f : ρ → σ) : Ea ρ → Ea σ
  | .reg r => .reg (f r)
  | .mem m => .mem m

/-- The byte-width E operand (30_encoding.md R164). -/
def Ea.byteReg (e : Ea Oct) : Ea Reg8 := e.map Reg8.ofOct

/-- The word-width E operand (30_encoding.md R164). -/
def Ea.wordReg (e : Ea Oct) : Ea Reg16 := e.map Reg16.ofOct

/-! ### Reading fields from the queue: `none` is PQ_UNDERFLOW (30_encoding.md R141) -/

/-- One byte, and the rest. -/
def take8 : List Byte → Option (Byte × List Byte)
  | b :: t => some (b, t)
  | [] => none

/-- Two bytes, low byte first, and the rest (30_encoding.md R166). -/
def take16 : List Byte → Option (Word × List Byte)
  | lo :: hi :: t => some (wordOf lo hi, t)
  | _ => none

/-- The ModRM byte and its displacement: the `reg` field, the E operand, the rest (30_encoding.md R160, R161). -/
def takeModRM : List Byte → Option (Oct × Ea Oct × List Byte)
  | [] => none
  | m :: t =>
    match top2 m with
    | .q3 => some (mid3 m, .reg (low3 m), t)
    | .q0 =>
      match low3 m with
      | .o6 => (take16 t).map fun (a, t') => (mid3 m, .mem (.direct a), t')
      | r => some (mid3 m, .mem (.noDisp (Base.ofOct r)), t)
    | .q1 => (take8 t).map fun (d, t') => (mid3 m, .mem (.disp8 (Base.ofOct (low3 m)) d), t')
    | .q2 => (take16 t).map fun (d, t') => (mid3 m, .mem (.disp16 (Base.ofOct (low3 m)) d), t')

/-- A form with a ModRM byte and nothing after it (format OP_MODRM, 30_encoding.md R203). -/
def withRM (t : List Byte) (f : Oct → Ea Oct → Instr) : Option Instr :=
  (takeModRM t).map fun (g, e, _) => f g e

/-- A form with a ModRM byte and a byte immediate (OP_MODRM_I8). -/
def withRM8 (t : List Byte) (f : Oct → Ea Oct → Byte → Instr) : Option Instr :=
  (takeModRM t).bind fun (g, e, t') => (take8 t').map fun (i, _) => f g e i

/-- A form with a ModRM byte and a word immediate (OP_MODRM_I16). -/
def withRM16 (t : List Byte) (f : Oct → Ea Oct → Word → Instr) : Option Instr :=
  (takeModRM t).bind fun (g, e, t') => (take16 t').map fun (i, _) => f g e i

/-- A form with a byte after the opcode (OP_I8, OP_REL8). -/
def with8 (t : List Byte) (f : Byte → Instr) : Option Instr := (take8 t).map fun (i, _) => f i

/-- A form with a word after the opcode (OP_I16, OP_REL16, OP_MOFFS). -/
def with16 (t : List Byte) (f : Word → Instr) : Option Instr := (take16 t).map fun (i, _) => f i

/-- A far pointer after the opcode: offset, then segment (OP_PTR, 30_encoding.md R169). -/
def withPtr (t : List Byte) (f : Word → Word → Instr) : Option Instr :=
  (take16 t).bind fun (off, t') => (take16 t').map fun (sel, _) => f off sel

/-- A memory-only form: with mod = 11 the encoding is unknown (30_encoding.md R202). -/
def withMem (p : List Pfx) (op : Byte) (t : List Byte) (f : Oct → MemRef → Instr) : Option Instr :=
  match t with
  | [] => none
  | m :: _ =>
    match top2 m with
    | .q3 => some (.generic p (.group op m))
    | _ => (takeModRM t).map fun (g, e, _) =>
        match e with
        | .mem r => f g r
        | .reg _ => .generic p (.group op m)

/-! ### The opcode map (30_encoding.md R195) -/

/-- The eight two-operand operations by index (41_arith_logic.md R271, 30_encoding.md R196). -/
def aluOf : Oct → List Pfx → AluForm → Instr
  | .o0 => .add | .o1 => .lor | .o2 => .adc | .o3 => .sbb | .o4 => .land | .o5 => .sub | .o6 => .lxor | .o7 => .cmp

/-- 0x70 to 0x77 (43_control_transfer.md R371). -/
def jccLow : Oct → List Pfx → Byte → Instr
  | .o0 => .jo | .o1 => .jno | .o2 => .jb | .o3 => .jnb | .o4 => .jz | .o5 => .jnz | .o6 => .jbe | .o7 => .ja

/-- 0x78 to 0x7F (43_control_transfer.md R371). -/
def jccHigh : Oct → List Pfx → Byte → Instr
  | .o0 => .js | .o1 => .jns | .o2 => .jp | .o3 => .jnp | .o4 => .jl | .o5 => .jge | .o6 => .jle | .o7 => .jg

/-- 0x00 to 0x3F: the ALU block, PUSH and POP of segment registers, the overrides, decimal adjust. -/
def decode0 (p : List Pfx) (y z : Oct) (t : List Byte) : Option Instr :=
  match z with
  | .o0 => withRM t fun g e => aluOf y p (.ebGb e.byteReg (Reg8.ofOct g))
  | .o1 => withRM t fun g e => aluOf y p (.evGv e.wordReg (Reg16.ofOct g))
  | .o2 => withRM t fun g e => aluOf y p (.gbEb (Reg8.ofOct g) e.byteReg)
  | .o3 => withRM t fun g e => aluOf y p (.gvEv (Reg16.ofOct g) e.wordReg)
  | .o4 => with8 t fun i => aluOf y p (.alIb i)
  | .o5 => with16 t fun i => aluOf y p (.axIw i)
  | .o6 =>
    match y with
    | .o0 => some (.pushSr p .es)
    | .o1 => some (.pushSr p .cs)
    | .o2 => some (.pushSr p .ss)
    | .o3 => some (.pushSr p .ds)
    | .o4 => some (.segByte p .es)
    | .o5 => some (.segByte p .cs)
    | .o6 => some (.segByte p .ss)
    | .o7 => some (.segByte p .ds)
  | .o7 =>
    match y with
    | .o0 => some (.popSr p .es)
    | .o1 => some (.generic p (.byte 0x0F))
    | .o2 => some (.popSr p .ss)
    | .o3 => some (.popSr p .ds)
    | .o4 => some (.daa p)
    | .o5 => some (.das p)
    | .o6 => some (.aaa p)
    | .o7 => some (.aas p)

/-- 0x40 to 0x7F: INC, DEC, PUSH, POP of a register, unused bytes, Jcc. -/
def decode1 (p : List Pfx) (y z : Oct) (t : List Byte) : Option Instr :=
  match y with
  | .o0 => some (.inc p (.rw (Reg16.ofOct z)))
  | .o1 => some (.dec p (.rw (Reg16.ofOct z)))
  | .o2 => some (.pushRw p (Reg16.ofOct z))
  | .o3 => some (.popRw p (Reg16.ofOct z))
  | .o4 => some (.generic p (.byte (octal .q1 .o4 z)))
  | .o5 => some (.generic p (.byte (octal .q1 .o5 z)))
  | .o6 => with8 t (jccLow z p)
  | .o7 => with8 t (jccHigh z p)

/-- 0x8C, MOV Ew,Sw (30_encoding.md R201). -/
def decode8C (p : List Pfx) (t : List Byte) : Option Instr :=
  match t with
  | [] => none
  | m :: _ =>
    match SReg.ofOct (mid3 m) with
    | some s => withRM t fun _ e => .movFromSeg p e.wordReg s
    | none => some (.generic p (.group 0x8C m))

/-- 0x8E, MOV Sw,Ew; a move into CS is unknown (30_encoding.md R201). -/
def decode8E (p : List Pfx) (t : List Byte) : Option Instr :=
  match t with
  | [] => none
  | m :: _ =>
    match SReg.ofOct (mid3 m) with
    | some .cs => some (.generic p (.group 0x8E m))
    | some s => withRM t fun _ e => .movToSeg p s e.wordReg
    | none => some (.generic p (.group 0x8E m))

/-- A single-member group: only reg = 000 is a template (30_encoding.md R200). -/
def onlyReg0 (p : List Pfx) (op : Byte) (t : List Byte) (k : Option Instr) : Option Instr :=
  match t with
  | [] => none
  | m :: _ =>
    match mid3 m with
    | .o0 => k
    | _ => some (.generic p (.group op m))

/-- 0x80 to 0xBF: group 1, TEST, XCHG, MOV, LEA, POP Ev, NOP, conversions, CALL far, flags, strings, moffs. -/
def decode2 (p : List Pfx) (y z : Oct) (t : List Byte) : Option Instr :=
  match y with
  | .o0 =>
    match z with
    | .o0 => withRM8 t fun k e i => aluOf k p (.ebIb e.byteReg i)
    | .o1 => withRM16 t fun k e i => aluOf k p (.evIw e.wordReg i)
    | .o2 => withRM8 t fun k e i => aluOf k p (.ebIbAlias e.byteReg i)
    | .o3 => withRM8 t fun k e i => aluOf k p (.evIbs e.wordReg i)
    | .o4 => withRM t fun g e => .test p (.ebGb e.byteReg (Reg8.ofOct g))
    | .o5 => withRM t fun g e => .test p (.evGv e.wordReg (Reg16.ofOct g))
    | .o6 => withRM t fun g e => .xchgRm p (.ebGb e.byteReg (Reg8.ofOct g))
    | .o7 => withRM t fun g e => .xchgRm p (.evGv e.wordReg (Reg16.ofOct g))
  | .o1 =>
    match z with
    | .o0 => withRM t fun g e => .movRm p (.ebGb e.byteReg (Reg8.ofOct g))
    | .o1 => withRM t fun g e => .movRm p (.evGv e.wordReg (Reg16.ofOct g))
    | .o2 => withRM t fun g e => .movRm p (.gbEb (Reg8.ofOct g) e.byteReg)
    | .o3 => withRM t fun g e => .movRm p (.gvEv (Reg16.ofOct g) e.wordReg)
    | .o4 => decode8C p t
    | .o5 => withMem p 0x8D t fun g m => .lea p (Reg16.ofOct g) m
    | .o6 => decode8E p t
    | .o7 => onlyReg0 p 0x8F t (withRM t fun _ e => .popRm p e.wordReg)
  | .o2 =>
    match z with
    | .o0 => some (.nop p)
    | r => some (.xchgAx p (Reg16.ofOct r))
  | .o3 =>
    match z with
    | .o0 => some (.cbw p)
    | .o1 => some (.cwd p)
    | .o2 => withPtr t (.callFar p)
    | .o3 => some (.wait p)
    | .o4 => some (.pushf p)
    | .o5 => some (.popf p)
    | .o6 => some (.sahf p)
    | .o7 => some (.lahf p)
  | .o4 =>
    match z with
    | .o0 => with16 t (.movAccMoffs p .byte)
    | .o1 => with16 t (.movAccMoffs p .word)
    | .o2 => with16 t (.movMoffsAcc p .byte)
    | .o3 => with16 t (.movMoffsAcc p .word)
    | .o4 => some (.movsb p)
    | .o5 => some (.movsw p)
    | .o6 => some (.cmpsb p)
    | .o7 => some (.cmpsw p)
  | .o5 =>
    match z with
    | .o0 => with8 t fun i => .test p (.alIb i)
    | .o1 => with16 t fun i => .test p (.axIw i)
    | .o2 => some (.stosb p)
    | .o3 => some (.stosw p)
    | .o4 => some (.lodsb p)
    | .o5 => some (.lodsw p)
    | .o6 => some (.scasb p)
    | .o7 => some (.scasw p)
  | .o6 => with8 t (.movRbIb p (Reg8.ofOct z))
  | .o7 => with16 t (.movRwIw p (Reg16.ofOct z))

/-- Group 3, 0xF6 and 0xF7 (30_encoding.md R197); `test0` is the reg = 000 template. A refused member is
refused before any byte after the ModRM byte is read (60_exceptions.md R494). -/
def decodeGroup3 (p : List Pfx) (op : Byte) (w : Width) (t : List Byte) (test0 : Option Instr)
    (unary : Ea Oct → UnaryForm) : Option Instr :=
  match t with
  | [] => none
  | m :: _ =>
    match mid3 m with
    | .o0 => test0
    | .o1 => some (.generic p (.group op m))
    | .o2 => withRM t fun _ e => .lnot p (unary e)
    | .o3 => withRM t fun _ e => .neg p (unary e)
    | .o4 => some (.mul p w (top2 m) (low3 m))
    | .o5 => some (.imul p w (top2 m) (low3 m))
    | .o6 => some (.div p w (top2 m) (low3 m))
    | .o7 => some (.idiv p w (top2 m) (low3 m))

/-- Group 4, 0xFE (30_encoding.md R198). -/
def decodeGroup4 (p : List Pfx) (t : List Byte) : Option Instr :=
  match t with
  | [] => none
  | m :: _ =>
    match mid3 m with
    | .o0 => withRM t fun _ e => .inc p (.eb e.byteReg)
    | .o1 => withRM t fun _ e => .dec p (.eb e.byteReg)
    | _ => some (.generic p (.group 0xFE m))

/-- Group 5, 0xFF (30_encoding.md R199). -/
def decodeGroup5 (p : List Pfx) (t : List Byte) : Option Instr :=
  match t with
  | [] => none
  | m :: _ =>
    match mid3 m with
    | .o0 => withRM t fun _ e => .inc p (.ev e.wordReg)
    | .o1 => withRM t fun _ e => .dec p (.ev e.wordReg)
    | .o2 => withRM t fun _ e => .callRm p e.wordReg
    | .o3 => withMem p 0xFF t fun _ r => .callMem p r
    | .o4 => withRM t fun _ e => .jmpRm p e.wordReg
    | .o5 => withMem p 0xFF t fun _ r => .jmpMem p r
    | .o6 => withRM t fun _ e => .pushRm p e.wordReg
    | .o7 => some (.generic p (.group 0xFF m))

/-- 0xC0 to 0xFF: returns, LES, LDS, MOV immediate, interrupts, shifts, XLAT, ESC, loops, ports, jumps, groups. -/
def decode3 (p : List Pfx) (y z : Oct) (t : List Byte) : Option Instr :=
  match y with
  | .o0 =>
    match z with
    | .o0 => some (.generic p (.byte 0xC0))
    | .o1 => some (.generic p (.byte 0xC1))
    | .o2 => with16 t (.retImm p)
    | .o3 => some (.ret p)
    | .o4 => withMem p 0xC4 t fun g m => .les p (Reg16.ofOct g) m
    | .o5 => withMem p 0xC5 t fun g m => .lds p (Reg16.ofOct g) m
    | .o6 => onlyReg0 p 0xC6 t (withRM8 t fun _ e i => .movRmImm p (.ebIb e.byteReg i))
    | .o7 => onlyReg0 p 0xC7 t (withRM16 t fun _ e i => .movRmImm p (.evIw e.wordReg i))
  | .o1 =>
    match z with
    | .o0 => some (.generic p (.byte 0xC8))
    | .o1 => some (.generic p (.byte 0xC9))
    | .o2 => with16 t (.retfImm p)
    | .o3 => some (.retf p)
    | .o4 => some (.int3 p)
    | .o5 => with8 t (.int p)
    | .o6 => some (.into p)
    | .o7 => some (.iret p)
  | .o2 =>
    match z with
    | .o0 => some (.shiftRotate p .eb1)
    | .o1 => some (.shiftRotate p .ev1)
    | .o2 => some (.shiftRotate p .ebCl)
    | .o3 => some (.shiftRotate p .evCl)
    | .o4 => some (.aam p)
    | .o5 => some (.aad p)
    | .o6 => some (.generic p (.byte 0xD6))
    | .o7 => some (.xlat p)
  | .o3 => some (.esc p z)
  | .o4 =>
    match z with
    | .o0 => with8 t (.loopne p)
    | .o1 => with8 t (.loope p)
    | .o2 => with8 t (.loop p)
    | .o3 => with8 t (.jcxz p)
    | .o4 => with8 t (.inImm p .byte)
    | .o5 => with8 t (.inImm p .word)
    | .o6 => with8 t (.outImm p .byte)
    | .o7 => with8 t (.outImm p .word)
  | .o5 =>
    match z with
    | .o0 => with16 t (.callNear p)
    | .o1 => with16 t (.jmpNear p)
    | .o2 => withPtr t (.jmpFar p)
    | .o3 => with8 t (.jmpShort p)
    | .o4 => some (.inDx p .byte)
    | .o5 => some (.inDx p .word)
    | .o6 => some (.outDx p .byte)
    | .o7 => some (.outDx p .word)
  | .o6 =>
    match z with
    | .o0 => some (.lock p)
    | .o1 => some (.generic p (.byte 0xF1))
    | .o2 => some (.repneByte p)
    | .o3 => some (.repByte p)
    | .o4 => some (.hlt p)
    | .o5 => some (.cmc p)
    | .o6 => decodeGroup3 p 0xF6 .byte t (withRM8 t fun _ e i => .test p (.ebIb e.byteReg i)) (fun e => .eb e.byteReg)
    | .o7 => decodeGroup3 p 0xF7 .word t (withRM16 t fun _ e i => .test p (.evIw e.wordReg i)) (fun e => .ev e.wordReg)
  | .o7 =>
    match z with
    | .o0 => some (.clc p)
    | .o1 => some (.stc p)
    | .o2 => some (.cli p)
    | .o3 => some (.sti p)
    | .o4 => some (.cld p)
    | .o5 => some (.std p)
    | .o6 => decodeGroup4 p t
    | .o7 => decodeGroup5 p t

/-- Dispatch on the opcode, the first byte after the prefixes; `t` is what follows it (30_encoding.md R142). -/
def decodeOp (p : List Pfx) (op : Byte) (t : List Byte) : Option Instr :=
  match top2 op with
  | .q0 => decode0 p (mid3 op) (low3 op) t
  | .q1 => decode1 p (mid3 op) (low3 op) t
  | .q2 => decode2 p (mid3 op) (low3 op) t
  | .q3 => decode3 p (mid3 op) (low3 op) t

/-- The prefix a byte is, if it is one (30_encoding.md R150). -/
def Pfx.ofByte (b : Byte) : Option Pfx :=
  if b = 0x26 then some (.seg .es)
  else if b = 0x2E then some (.seg .cs)
  else if b = 0x36 then some (.seg .ss)
  else if b = 0x3E then some (.seg .ds)
  else if b = 0xF2 then some .repne
  else if b = 0xF3 then some .rep
  else none

/-- The prefix chain, at most `n` prefixes, and the bytes after it (30_encoding.md R151, R152). -/
def takePrefixes : Nat → List Byte → List Pfx × List Byte
  | 0, t => ([], t)
  | _ + 1, [] => ([], [])
  | n + 1, b :: t =>
    match Pfx.ofByte b with
    | some x => (x :: (takePrefixes n t).1, (takePrefixes n t).2)
    | none => ([], b :: t)

/-- Decode (30_encoding.md R142) over the bytes the prefetch queue holds; `none` is PQ_UNDERFLOW (R141). -/
def decode (q : List Byte) : Option Instr :=
  match (takePrefixes Config.maxPrefixes q).2 with
  | [] => none
  | op :: t => decodeOp (takePrefixes Config.maxPrefixes q).1 op t

/-- Why decoding stops: the only reason there is (30_encoding.md R141). -/
inductive DecodeError where
  | pqUnderflow
  deriving DecidableEq, Repr

/-- `decode` with its rejection named. -/
def decodeNamed (q : List Byte) : Except DecodeError Instr :=
  match decode q with
  | some i => .ok i
  | none => .error .pqUnderflow

/-! ### The encoder -/

/-- The byte of a prefix (30_encoding.md R150). -/
def Pfx.byte : Pfx → Byte
  | .seg .es => 0x26
  | .seg .cs => 0x2E
  | .seg .ss => 0x36
  | .seg .ds => 0x3E
  | .repne => 0xF2
  | .rep => 0xF3

/-- The ModRM byte and displacement of a `reg` field and an E operand (30_encoding.md R160, R161). -/
def encodeModRM (g : Oct) : Ea Oct → List Byte
  | .reg r => [octal .q3 g r]
  | .mem (.noDisp b) => [octal .q0 g b.code]
  | .mem (.direct a) => octal .q0 g .o6 :: leBytes a
  | .mem (.disp8 b d) => [octal .q1 g b.code, d]
  | .mem (.disp16 b d) => octal .q2 g b.code :: leBytes d

/-- ModRM bytes with byte registers. -/
def encodeEb (g : Oct) (e : Ea Reg8) : List Byte := encodeModRM g (e.map Reg8.code)

/-- ModRM bytes with word registers. -/
def encodeEv (g : Oct) (e : Ea Reg16) : List Byte := encodeModRM g (e.map Reg16.code)

/-- ModRM bytes of a memory-only form. -/
def encodeM (g : Oct) (m : MemRef) : List Byte := encodeModRM g (.mem m)

/-- The bytes of a two-operand form of operation index `k` (41_arith_logic.md R271). -/
def AluForm.encode (k : Oct) : AluForm → List Byte
  | .ebGb e g => octal .q0 k .o0 :: encodeEb g.code e
  | .evGv e g => octal .q0 k .o1 :: encodeEv g.code e
  | .gbEb g e => octal .q0 k .o2 :: encodeEb g.code e
  | .gvEv g e => octal .q0 k .o3 :: encodeEv g.code e
  | .alIb i => [octal .q0 k .o4, i]
  | .axIw i => octal .q0 k .o5 :: leBytes i
  | .ebIb e i => 0x80 :: (encodeEb k e ++ [i])
  | .evIw e i => 0x81 :: (encodeEv k e ++ leBytes i)
  | .ebIbAlias e i => 0x82 :: (encodeEb k e ++ [i])
  | .evIbs e i => 0x83 :: (encodeEv k e ++ [i])

/-- TEST (41_arith_logic.md R280). -/
def TestForm.encode : TestForm → List Byte
  | .ebGb e g => 0x84 :: encodeEb g.code e
  | .evGv e g => 0x85 :: encodeEv g.code e
  | .alIb i => [0xA8, i]
  | .axIw i => 0xA9 :: leBytes i
  | .ebIb e i => 0xF6 :: (encodeEb .o0 e ++ [i])
  | .evIw e i => 0xF7 :: (encodeEv .o0 e ++ leBytes i)

/-- INC (`k` = 0) and DEC (`k` = 1) (41_arith_logic.md R281, R282). -/
def IncForm.encode (k : Oct) : IncForm → List Byte
  | .rw r => [octal .q1 k r.code]
  | .eb e => 0xFE :: encodeEb k e
  | .ev e => 0xFF :: encodeEv k e

/-- NOT (`k` = 2) and NEG (`k` = 3) (41_arith_logic.md R283, R284). -/
def UnaryForm.encode (k : Oct) : UnaryForm → List Byte
  | .eb e => 0xF6 :: encodeEb k e
  | .ev e => 0xF7 :: encodeEv k e

/-- MOV (42_data_transfer.md R321). -/
def MovForm.encode : MovForm → List Byte
  | .ebGb e g => 0x88 :: encodeEb g.code e
  | .evGv e g => 0x89 :: encodeEv g.code e
  | .gbEb g e => 0x8A :: encodeEb g.code e
  | .gvEv g e => 0x8B :: encodeEv g.code e

/-- MOV immediate (42_data_transfer.md R328). -/
def MovImmForm.encode : MovImmForm → List Byte
  | .ebIb e i => 0xC6 :: (encodeEb .o0 e ++ [i])
  | .evIw e i => 0xC7 :: (encodeEv .o0 e ++ leBytes i)

/-- XCHG (42_data_transfer.md R330). -/
def XchgForm.encode : XchgForm → List Byte
  | .ebGb e g => 0x86 :: encodeEb g.code e
  | .evGv e g => 0x87 :: encodeEv g.code e

/-- The opcode of a width-paired form: `b` with bit 0 set for word (30_encoding.md R145). -/
def Width.op (w : Width) (b : Byte) : Byte :=
  match w with
  | .byte => b
  | .word => b ||| 1

/-- The opcode and operand bytes, after the prefixes. For an unknown group encoding the ModRM byte that
decode looks at stands after the opcode; it is not consumed (30_encoding.md R181). -/
def Instr.body : Instr → List Byte
  | .add _ f => f.encode .o0
  | .lor _ f => f.encode .o1
  | .adc _ f => f.encode .o2
  | .sbb _ f => f.encode .o3
  | .land _ f => f.encode .o4
  | .sub _ f => f.encode .o5
  | .lxor _ f => f.encode .o6
  | .cmp _ f => f.encode .o7
  | .test _ f => f.encode
  | .inc _ f => f.encode .o0
  | .dec _ f => f.encode .o1
  | .neg _ f => f.encode .o3
  | .lnot _ f => f.encode .o2
  | .cbw _ => [0x98]
  | .cwd _ => [0x99]
  | .movRm _ f => f.encode
  | .movFromSeg _ e s => 0x8C :: encodeEv s.code e
  | .movToSeg _ s e => 0x8E :: encodeEv s.code e
  | .movAccMoffs _ w off => w.op 0xA0 :: leBytes off
  | .movMoffsAcc _ w off => w.op 0xA2 :: leBytes off
  | .movRbIb _ r i => [octal .q2 .o6 r.code, i]
  | .movRwIw _ r i => octal .q2 .o7 r.code :: leBytes i
  | .movRmImm _ f => f.encode
  | .xchgRm _ f => f.encode
  | .xchgAx _ r => [octal .q2 .o2 r.code]
  | .nop _ => [0x90]
  | .lea _ g m => 0x8D :: encodeM g.code m
  | .lds _ g m => 0xC5 :: encodeM g.code m
  | .les _ g m => 0xC4 :: encodeM g.code m
  | .xlat _ => [0xD7]
  | .pushRw _ r => [octal .q1 .o2 r.code]
  | .pushSr _ s => [octal .q0 s.code .o6]
  | .pushRm _ e => 0xFF :: encodeEv .o6 e
  | .popRw _ r => [octal .q1 .o3 r.code]
  | .popSr _ s => [octal .q0 s.code .o7]
  | .popRm _ e => 0x8F :: encodeEv .o0 e
  | .pushf _ => [0x9C]
  | .popf _ => [0x9D]
  | .lahf _ => [0x9F]
  | .sahf _ => [0x9E]
  | .inImm _ w port => [w.op 0xE4, port]
  | .inDx _ w => [w.op 0xEC]
  | .outImm _ w port => [w.op 0xE6, port]
  | .outDx _ w => [w.op 0xEE]
  | .jo _ d => [0x70, d]
  | .jno _ d => [0x71, d]
  | .jb _ d => [0x72, d]
  | .jnb _ d => [0x73, d]
  | .jz _ d => [0x74, d]
  | .jnz _ d => [0x75, d]
  | .jbe _ d => [0x76, d]
  | .ja _ d => [0x77, d]
  | .js _ d => [0x78, d]
  | .jns _ d => [0x79, d]
  | .jp _ d => [0x7A, d]
  | .jnp _ d => [0x7B, d]
  | .jl _ d => [0x7C, d]
  | .jge _ d => [0x7D, d]
  | .jle _ d => [0x7E, d]
  | .jg _ d => [0x7F, d]
  | .jmpShort _ d => [0xEB, d]
  | .jmpNear _ d => 0xE9 :: leBytes d
  | .jmpFar _ off sel => 0xEA :: (leBytes off ++ leBytes sel)
  | .jmpRm _ e => 0xFF :: encodeEv .o4 e
  | .jmpMem _ m => 0xFF :: encodeM .o5 m
  | .loop _ d => [0xE2, d]
  | .loope _ d => [0xE1, d]
  | .loopne _ d => [0xE0, d]
  | .jcxz _ d => [0xE3, d]
  | .callNear _ d => 0xE8 :: leBytes d
  | .callFar _ off sel => 0x9A :: (leBytes off ++ leBytes sel)
  | .callRm _ e => 0xFF :: encodeEv .o2 e
  | .callMem _ m => 0xFF :: encodeM .o3 m
  | .ret _ => [0xC3]
  | .retImm _ i => 0xC2 :: leBytes i
  | .retf _ => [0xCB]
  | .retfImm _ i => 0xCA :: leBytes i
  | .int _ n => [0xCD, n]
  | .int3 _ => [0xCC]
  | .into _ => [0xCE]
  | .iret _ => [0xCF]
  | .clc _ => [0xF8]
  | .stc _ => [0xF9]
  | .cmc _ => [0xF5]
  | .cli _ => [0xFA]
  | .sti _ => [0xFB]
  | .cld _ => [0xFC]
  | .std _ => [0xFD]
  | .hlt _ => [0xF4]
  | .daa _ => [0x27]
  | .das _ => [0x2F]
  | .aaa _ => [0x37]
  | .aas _ => [0x3F]
  | .wait _ => [0x9B]
  | .movsb _ => [0xA4]
  | .movsw _ => [0xA5]
  | .cmpsb _ => [0xA6]
  | .cmpsw _ => [0xA7]
  | .stosb _ => [0xAA]
  | .stosw _ => [0xAB]
  | .lodsb _ => [0xAC]
  | .lodsw _ => [0xAD]
  | .scasb _ => [0xAE]
  | .scasw _ => [0xAF]
  | .shiftRotate _ .eb1 => [0xD0]
  | .shiftRotate _ .ev1 => [0xD1]
  | .shiftRotate _ .ebCl => [0xD2]
  | .shiftRotate _ .evCl => [0xD3]
  | .aam _ => [0xD4]
  | .aad _ => [0xD5]
  | .esc _ k => [octal .q3 .o3 k]
  | .lock _ => [0xF0]
  | .mul _ w md rm => [w.op 0xF6, octal md .o4 rm]
  | .imul _ w md rm => [w.op 0xF6, octal md .o5 rm]
  | .div _ w md rm => [w.op 0xF6, octal md .o6 rm]
  | .idiv _ w md rm => [w.op 0xF6, octal md .o7 rm]
  | .segByte _ s => [(Pfx.seg s).byte]
  | .repneByte _ => [0xF2]
  | .repByte _ => [0xF3]
  | .generic _ (.byte b) => [b]
  | .generic _ (.group op m) => [op, m]

/-- The bytes that name an instruction: its prefixes, then its body. -/
def Instr.encode (i : Instr) : List Byte := i.pfx.map Pfx.byte ++ i.body

/-! ### The decoded record (30_encoding.md R140) -/

/-- `bytes`: the bytes consumed. The generic instruction consumes its prefixes and opcode only (R181). -/
def Instr.bytes (i : Instr) : List Byte :=
  match i with
  | .generic p (.group op _) => p.map Pfx.byte ++ [op]
  | _ => i.encode

/-- `len`: the total length including the prefixes (30_encoding.md R143). -/
def Instr.len (i : Instr) : Nat := i.bytes.length

/-- `nprefix` (30_encoding.md R151). -/
def Instr.nprefix (i : Instr) : Nat := i.pfx.length

/-- `seg`: the last segment override of the chain is in force (30_encoding.md R153). -/
def segOverride (p : List Pfx) : Option SReg :=
  p.foldl (fun acc x => match x with | .seg s => some s | _ => acc) none

/-- `rep`: the last repeat prefix of the chain (30_encoding.md R154). No meaning reads it. -/
def repInForce (p : List Pfx) : Option RepKind :=
  p.foldl (fun acc x => match x with | .rep => some .rep | .repne => some .repne | .seg _ => acc) none

/-- `opcode`: the first byte after the prefixes. -/
def Instr.opcode (i : Instr) : Byte := i.body.headD 0

/-- The opcodes resolved by the `reg` or `mod` field of the next byte (30_encoding.md R195 to R202). -/
def isGroupOpcode (op : Byte) : Bool :=
  (0x80 ≤ op && op ≤ 0x83) || op == 0x8C || op == 0x8D || op == 0x8E || op == 0x8F || op == 0xC4 || op == 0xC5
    || op == 0xC6 || op == 0xC7 || op == 0xF6 || op == 0xF7 || op == 0xFE || op == 0xFF

/-- `ext`: the ModRM `reg` field, for group opcodes (30_encoding.md R140). LEA, LES and LDS are memory-only
forms, not groups (R195). -/
def Instr.ext (i : Instr) : Option Oct :=
  if isGroupOpcode i.opcode && i.opcode != 0x8D && i.opcode != 0xC4 && i.opcode != 0xC5
  then i.body[1]?.map mid3 else none

/-- `writes_pc` (30_encoding.md R210). -/
def Instr.writesPc : Instr → Bool
  | .jo _ _ | .jno _ _ | .jb _ _ | .jnb _ _ | .jz _ _ | .jnz _ _ | .jbe _ _ | .ja _ _ => true
  | .js _ _ | .jns _ _ | .jp _ _ | .jnp _ _ | .jl _ _ | .jge _ _ | .jle _ _ | .jg _ _ => true
  | .jmpShort _ _ | .jmpNear _ _ | .jmpFar _ _ _ | .jmpRm _ _ | .jmpMem _ _ => true
  | .loop _ _ | .loope _ _ | .loopne _ _ | .jcxz _ _ => true
  | .callNear _ _ | .callFar _ _ _ | .callRm _ _ | .callMem _ _ => true
  | .ret _ | .retImm _ _ | .retf _ | .retfImm _ _ => true
  | .int _ _ | .int3 _ | .into _ | .iret _ => true
  | _ => false

/-- `target_static` (30_encoding.md R210). -/
def Instr.targetStatic : Instr → Bool
  | .jo _ _ | .jno _ _ | .jb _ _ | .jnb _ _ | .jz _ _ | .jnz _ _ | .jbe _ _ | .ja _ _ => true
  | .js _ _ | .jns _ _ | .jp _ _ | .jnp _ _ | .jl _ _ | .jge _ _ | .jle _ _ | .jg _ _ => true
  | .jmpShort _ _ | .jmpNear _ _ | .jmpFar _ _ _ => true
  | .loop _ _ | .loope _ _ | .loopne _ _ | .jcxz _ _ => true
  | .callNear _ _ | .callFar _ _ _ => true
  | _ => false

/-- The refused encodings (30_encoding.md R192): the tick refuses them at decode. -/
def Instr.isRefused : Instr → Bool
  | .daa _ | .das _ | .aaa _ | .aas _ | .wait _ => true
  | .movsb _ | .movsw _ | .cmpsb _ | .cmpsw _ | .stosb _ | .stosw _ | .lodsb _ | .lodsw _ | .scasb _ | .scasw _ => true
  | .shiftRotate _ _ | .aam _ | .aad _ | .esc _ _ | .lock _ => true
  | .mul _ _ _ _ | .imul _ _ _ _ | .div _ _ _ _ | .idiv _ _ _ _ => true
  | _ => false

/-! ### The opcode table's words -/

/-- The bytes of a word of spec/opcode_table.json, first byte of the instruction first. A one-byte row's word
is that byte. A two-byte row's word holds the opcode in bits 15:8 and the ModRM byte in bits 7:0, as the
table's `match` and `mask` number it; a word whose bits 15:8 are no two-byte row's opcode is read with its
first byte in bits 7:0 (log entry 14). -/
def tableWordBytes (nbits w : Nat) : List Byte :=
  let lo : Byte := BitVec.ofNat 8 w
  let hi : Byte := BitVec.ofNat 8 (w / 256)
  if nbits ≤ 8 then [lo]
  else if isGroupOpcode hi then [hi, lo]
  else [lo, hi]

/-- The six bytes the fetch sees for a table word: its own bytes, then zeros. -/
def tableWordQueue (nbits w : Nat) : List Byte :=
  (tableWordBytes nbits w ++ [0, 0, 0, 0, 0]).take Config.pqCapacity

/-- The instruction the decoder reads from a word of spec/opcode_table.json. -/
def decodeTableWord (nbits w : Nat) : Option Instr := decode (tableWordQueue nbits w)

end Sys2Proof
end

