-- ==== Sys2Proof/Machine/State.lean ====
section
/-! DEFINITION. The state of the block (10_state.md R30), plain data, and its value after reset (R61). -/

namespace Sys2Proof.Machine

/-- The eight general registers (10_state.md R31). -/
structure Regs where
  ax : Word
  cx : Word
  dx : Word
  bx : Word
  sp : Word
  bp : Word
  si : Word
  di : Word
  deriving DecidableEq, Repr

/-- The four segment registers (10_state.md R36). -/
structure SRegs where
  es : Word
  cs : Word
  ss : Word
  ds : Word
  deriving DecidableEq, Repr

/-- The nine named flags (10_state.md R40); `ifl` is IF. The reserved bits hold no state (R43). -/
structure Flags where
  cf : Bool
  pf : Bool
  af : Bool
  zf : Bool
  sf : Bool
  tf : Bool
  ifl : Bool
  df : Bool
  of : Bool
  deriving DecidableEq, Repr

/-- A value moved by an access, with its width (20_memory.md R89). -/
inductive Datum where
  | b (v : Byte)
  | w (v : Word)
  deriving DecidableEq, Repr

/-- The source tag of an interrupt entry (60_exceptions.md R490). -/
inductive IntSource where
  | nmi
  | intr
  | software
  | trap
  deriving DecidableEq, Repr

/-- The events of the observation log (10_state.md R60). The width n of an access is the width of its
datum (log entry 21). -/
inductive Event where
  /-- `MemWrite(addr, n, v, dropped)` -/
  | memWrite (addr : Addr) (v : Datum) (dropped : Bool)
  /-- `PortIn(n, port, v)` -/
  | portIn (port : Word) (v : Datum)
  /-- `PortOut(n, port, v)` -/
  | portOut (port : Word) (v : Datum)
  /-- `Undefined(linear, bytes)` -/
  | undefined (addr : Addr) (bytes : List Byte)
  /-- `StepNotify` -/
  | stepNotify
  /-- `IntTaken(vector, source)` -/
  | intTaken (vector : Byte) (source : IntSource)
  deriving DecidableEq, Repr

/-- A decoded instruction as a queue slot holds it (30_encoding.md R140): the instruction, `addr` and `bytes`.
The record's other fields are functions of the instruction (Sys2Proof/Decode.lean and Machine/Record.lean). -/
structure Decoded where
  instr : Instr
  addr : Addr
  bytes : List Byte
  deriving DecidableEq, Repr

/-- The pipeline stage (10_state.md R48). `stepWait d pq resumed` is the StepWait of decoded instruction `d`; `pq` is
the prefetch queue at the start of the tick, which a fault after the wait gives back (48_pipeline.md R454), and
`resumed` says whether the host has sent the resume signal of this wait (R457; log entry 9). -/
inductive Stage where
  | fetching
  | decoding
  | stepWait (d : Decoded) (pq : List Byte) (resumed : Bool)
  | executing
  deriving DecidableEq, Repr

/-- The decoded-instruction queue (10_state.md R46). `DQ_DEPTH` is the number of slots (log entry 18). -/
structure DQueue where
  slots : List (Option Decoded)
  head : Nat
  count : Nat
  deriving DecidableEq, Repr

/-- The memory (20_memory.md R83): the bytes that differ from `Config.unlistedByte`, by rising address. -/
abbrev Memory := List Host.Cell

/-- The machine's state. -/
structure State where
  /-- R16[0..7], 10_state.md R31 -/
  regs : Regs
  /-- SR[0..3], 10_state.md R36 -/
  sregs : SRegs
  /-- IP, 10_state.md R39 -/
  ip : Word
  /-- FLAGS, 10_state.md R40 -/
  flags : Flags
  /-- PQ, head first, 10_state.md R45 -/
  pq : List Byte
  /-- DQ, 10_state.md R46 -/
  dq : DQueue
  /-- 10_state.md R47 -/
  halted : Bool
  /-- 10_state.md R48 -/
  stepMode : Bool
  /-- 10_state.md R48 -/
  stage : Stage
  /-- 10_state.md R49 -/
  nmiLatched : Bool
  /-- 10_state.md R50 -/
  stopRequested : Bool
  /-- 10_state.md R50 -/
  undefSeen : Bool
  /-- the observation log, oldest first, 10_state.md R60 -/
  log : List Event
  /-- MEM, 20_memory.md R83 -/
  mem : Memory
  /-- the model's own: the OPEN parameters, fixed for a run (00_scope.md R7, R8; log entry 4) -/
  params : Params
  /-- the model's own: the interrupt controller's answer to the next query (48_pipeline.md R470; log entry 7) -/
  intr : Option Byte
  /-- the model's own: how many free values have been drawn (log entries 5 and 6) -/
  draws : Nat
  deriving DecidableEq, Repr

/-- The fault codes (60_exceptions.md R484), each with addr (R482). Raising one is safe: the spec makes it an
explicit error outcome of the block. -/
inductive Fault where
  /-- `PQ.fill` on a full queue (20_memory.md R111); raised by `pqFill`; not reachable under the tick; safe -/
  | pqOverflow (addr : Addr)
  /-- a byte past the queue is needed (20_memory.md R112); raised by `pqPeek` and by decode; safe -/
  | pqUnderflow (addr : Addr)
  /-- `DQ.fill` on a full queue (20_memory.md R115); raised by the tick when the queue is full; safe -/
  | dqFull (addr : Addr)
  /-- `DQ.fetch` on an empty queue (20_memory.md R116); raised by the tick when the head slot is empty; safe -/
  | dqEmpty (addr : Addr)
  /-- the generic instruction with UNKNOWN_MODE = fault (30_encoding.md R182); raised by its meaning; safe -/
  | undefinedInstruction (addr : Addr) (bytes : List Byte)
  deriving DecidableEq, Repr

/-- The refusals (60_exceptions.md R485), each with addr (R483), and the model's own. Refusing is safe: it
errs toward unprovable. -/
inductive Refusal where
  /-- an instruction that has no meaning yet; raised by no arm of `exec`; safe -/
  | notModelled (mnemonic : String)
  /-- a documented 8086 instruction the spec gives no semantics (30_encoding.md R192); raised by its meaning;
  safe -/
  | notAdmitted (opcode : Byte) (ext : Option Oct) (addr : Addr)
  /-- TF = 1 at the fetch with TF_MODE = refuse (60_exceptions.md R498); raised by the tick; safe -/
  | tfTrapUnmodelled (addr : Addr)
  deriving DecidableEq, Repr

/-- The launch state (70_reset_and_hazards.md R530): the launch-input registers (10_state.md R62), the memory
image (R531), the parameters (00_scope.md R7) and the controller's first answer. -/
structure Launch where
  regs : Regs
  es : Word
  ss : Word
  ds : Word
  resetCs : Word
  resetIp : Word
  dqDepth : Nat
  params : Params
  mem : Memory
  intr : Option Byte
  deriving DecidableEq, Repr

/-- The state after reset of a launch (10_state.md R61, 70_reset_and_hazards.md R530). -/
def State.launch (l : Launch) : State :=
  { regs := l.regs
    sregs := { es := l.es, cs := l.resetCs, ss := l.ss, ds := l.ds }
    ip := l.resetIp
    flags :=
      { cf := false, pf := false, af := false, zf := false, sf := false
        tf := false, ifl := false, df := false, of := false }
    pq := []
    dq := { slots := List.replicate l.dqDepth none, head := 0, count := 0 }
    halted := false
    stepMode := false
    stage := .fetching
    nmiLatched := false
    stopRequested := false
    undefSeen := false
    log := []
    mem := l.mem
    params := l.params
    intr := l.intr
    draws := 0 }

/-- The launch the model resets to. DESIGN CHOICE (log entries 1, 2, 3, 4, 7): registers zero, nothing loaded,
parameters at the defaults of 00_scope.md R7, no maskable request; unsafe, since the spec fixes none of the
launch inputs (10_state.md R62). -/
def Launch.default : Launch :=
  { regs := { ax := 0, cx := 0, dx := 0, bx := 0, sp := 0, bp := 0, si := 0, di := 0 }
    es := 0
    ss := 0
    ds := 0
    resetCs := Config.resetCs
    resetIp := Config.resetIp
    dqDepth := Config.dqDepth
    params := Config.defaultParams
    mem := []
    intr := none }

/-- The machine right after reset (10_state.md R61). -/
def State.reset : State := State.launch Launch.default

end Sys2Proof.Machine
end

