-- ==== Sys2Proof/Machine/Flags.lean ====
section
/-! DEFINITION. The ALU functions and their flags (40_alu.md), as functions of the flags register and the
operands, and the flags image (10_state.md R42). -/

namespace Sys2Proof.Machine

/-! ### Flag formulas -/

/-- AF of the arithmetic functions (40_alu.md R232). -/
def auxCarry {n : Nat} (a b r : BitVec n) : Bool := (a ^^^ b ^^^ r) &&& BitVec.ofNat n 0x10 != 0

/-- CF of the add family (40_alu.md R233): `(a + b + c) > mask(N)`. -/
def addCarry {n : Nat} (a b : BitVec n) (c : Bool) : Bool := decide (2 ^ n - 1 < a.toNat + b.toNat + c.toNat)

/-- CF of the subtract family (40_alu.md R234): `a < (b + c)`. -/
def subBorrow {n : Nat} (a b : BitVec n) (c : Bool) : Bool := decide (a.toNat < b.toNat + c.toNat)

/-- SF: the top bit of the result (40_alu.md R235). -/
def signFlag {n : Nat} (r : BitVec n) : Bool := r.msb

/-- ZF: the result is zero (40_alu.md R235). -/
def zeroFlag {n : Nat} (r : BitVec n) : Bool := r == 0

/-- The number of one bits among the low eight (40_alu.md R236). -/
def popcount8 {n : Nat} (r : BitVec n) : Nat := [0, 1, 2, 3, 4, 5, 6, 7].countP fun k => r.getLsbD k

/-- PF: the low eight bits hold an even number of ones (40_alu.md R236). -/
def parityFlag {n : Nat} (r : BitVec n) : Bool := popcount8 r % 2 == 0

/-- OF of the add family (40_alu.md R237): the operands share a sign the result lacks. -/
def addOverflow {n : Nat} (a b r : BitVec n) : Bool := (~~~(a ^^^ b) &&& (a ^^^ r)).msb

/-- OF of the subtract family (40_alu.md R237). -/
def subOverflow {n : Nat} (a b r : BitVec n) : Bool := ((a ^^^ b) &&& (a ^^^ r)).msb

/-- SF, ZF and PF from a result (40_alu.md R235, R236). -/
def Flags.ofResult {n : Nat} (f : Flags) (r : BitVec n) : Flags :=
  { f with sf := signFlag r, zf := zeroFlag r, pf := parityFlag r }

/-! ### The functions (40_alu.md R239 to R250) -/

/-- An ALU function: the flags before and two operands give a result and the flags after (40_alu.md R230). -/
abbrev AluFn := (n : Nat) → Flags → BitVec n → BitVec n → BitVec n × Flags

/-- The flags of add and adc for incoming carry `c` and result `r`. -/
def addFlags {n : Nat} (f : Flags) (a b : BitVec n) (c : Bool) (r : BitVec n) : Flags :=
  { f.ofResult r with cf := addCarry a b c, af := auxCarry a b r, of := addOverflow a b r }

/-- The flags of sub, sbb, cmp and neg for incoming borrow `c` and result `r`. -/
def subFlags {n : Nat} (f : Flags) (a b : BitVec n) (c : Bool) (r : BitVec n) : Flags :=
  { f.ofResult r with cf := subBorrow a b c, af := auxCarry a b r, of := subOverflow a b r }

/-- `alu_add` (40_alu.md R239). -/
def aluAdd : AluFn := fun _ f a b => (a + b, addFlags f a b false (a + b))

/-- `alu_adc` (40_alu.md R240): the carry before the call is folded in. -/
def aluAdc : AluFn := fun n f a b =>
  (a + b + BitVec.ofNat n f.cf.toNat, addFlags f a b f.cf (a + b + BitVec.ofNat n f.cf.toNat))

/-- `alu_sub` (40_alu.md R241). -/
def aluSub : AluFn := fun _ f a b => (a - b, subFlags f a b false (a - b))

/-- `alu_sbb` (40_alu.md R242): the borrow before the call is folded in. -/
def aluSbb : AluFn := fun n f a b =>
  (a - b - BitVec.ofNat n f.cf.toNat, subFlags f a b f.cf (a - b - BitVec.ofNat n f.cf.toNat))

/-- `alu_inc` (40_alu.md R243): CF is unchanged. -/
def aluInc {n : Nat} (f : Flags) (a : BitVec n) : BitVec n × Flags :=
  (a + 1, { f.ofResult (a + 1) with af := auxCarry a 1 (a + 1), of := addOverflow a 1 (a + 1) })

/-- `alu_dec` (40_alu.md R244): CF is unchanged. -/
def aluDec {n : Nat} (f : Flags) (a : BitVec n) : BitVec n × Flags :=
  (a - 1, { f.ofResult (a - 1) with af := auxCarry a 1 (a - 1), of := subOverflow a 1 (a - 1) })

/-- `alu_neg` (40_alu.md R250): `alu_sub(N, 0, a)`. -/
def aluNeg {n : Nat} (f : Flags) (a : BitVec n) : BitVec n × Flags := aluSub n f 0 a

/-- The flags of a logical operation (40_alu.md R238): CF and OF cleared, SF, ZF and PF from the result, AF
the free value `af`. -/
def logicFlags {n : Nat} (f : Flags) (af : Bool) (r : BitVec n) : Flags :=
  { f.ofResult r with cf := false, of := false, af := af }

/-- A logical operation on bit patterns (40_alu.md R245 to R248). -/
abbrev LogicFn := (n : Nat) → BitVec n → BitVec n → BitVec n

/-- `and`, and `alu_test` (40_alu.md R245, R248). -/
def logicAnd : LogicFn := fun _ a b => a &&& b

/-- `or` (40_alu.md R246). -/
def logicOr : LogicFn := fun _ a b => a ||| b

/-- `xor` (40_alu.md R247). -/
def logicXor : LogicFn := fun _ a b => a ^^^ b

/-! ### The flags image (10_state.md R42) -/

/-- A flag at its position in the image. -/
def flagAt (x : Bool) (k : Nat) : Word := BitVec.ofNat 16 (x.toNat * 2 ^ k)

/-- `FlagsImage()` with reserved bits `reserved` (10_state.md R42, R43). -/
def Flags.image (f : Flags) (reserved : Word) : Word :=
  reserved ||| flagAt f.cf 0 ||| flagAt f.pf 2 ||| flagAt f.af 4 ||| flagAt f.zf 6 ||| flagAt f.sf 7
    ||| flagAt f.tf 8 ||| flagAt f.ifl 9 ||| flagAt f.df 10 ||| flagAt f.of 11

/-- The restore from a 16-bit value: nine named bits, the others ignored (10_state.md R42). -/
def Flags.restore (v : Word) : Flags :=
  { cf := v.getLsbD 0, pf := v.getLsbD 2, af := v.getLsbD 4, zf := v.getLsbD 6, sf := v.getLsbD 7
    tf := v.getLsbD 8, ifl := v.getLsbD 9, df := v.getLsbD 10, of := v.getLsbD 11 }

/-- SAHF's five flags from AH (42_data_transfer.md R352). -/
def Flags.loadLow (f : Flags) (v : Byte) : Flags :=
  { f with sf := v.getLsbD 7, zf := v.getLsbD 6, af := v.getLsbD 4, pf := v.getLsbD 2, cf := v.getLsbD 0 }

/-! ### Branch conditions (43_control_transfer.md R371) -/

/-- JO -/
def condO (f : Flags) : Bool := f.of
/-- JB -/
def condB (f : Flags) : Bool := f.cf
/-- JZ -/
def condZ (f : Flags) : Bool := f.zf
/-- JBE -/
def condBe (f : Flags) : Bool := f.cf || f.zf
/-- JS -/
def condS (f : Flags) : Bool := f.sf
/-- JP -/
def condP (f : Flags) : Bool := f.pf
/-- JL -/
def condL (f : Flags) : Bool := f.sf != f.of
/-- JLE -/
def condLe (f : Flags) : Bool := f.zf || (f.sf != f.of)

end Sys2Proof.Machine
end

