-- ==== Sys2Proof/Machine/Ops.lean ====
section
/-! DEFINITION. The named operations over the state: field updates, registers, memory, the stack, ports, the two
queues, interrupt entry and the return from one. -/

namespace Sys2Proof.Machine

/-! ### Field updates -/

/-- The state with these general registers. -/
def State.withRegs (s : State) (r : Regs) : State := { s with regs := r }
/-- The state with these segment registers. -/
def State.withSregs (s : State) (r : SRegs) : State := { s with sregs := r }
/-- The state with this IP. -/
def State.withIp (s : State) (v : Word) : State := { s with ip := v }
/-- The state with these flags. -/
def State.withFlags (s : State) (f : Flags) : State := { s with flags := f }
/-- The state with this prefetch queue. -/
def State.withPq (s : State) (q : List Byte) : State := { s with pq := q }
/-- The state with this decoded-instruction queue. -/
def State.withDq (s : State) (q : DQueue) : State := { s with dq := q }
/-- The state with this halted bit. -/
def State.withHalted (s : State) (b : Bool) : State := { s with halted := b }
/-- The state with this step-mode bit. -/
def State.withStepMode (s : State) (b : Bool) : State := { s with stepMode := b }
/-- The state at this stage. -/
def State.withStage (s : State) (g : Stage) : State := { s with stage := g }
/-- The state with this NMI latch. -/
def State.withNmi (s : State) (b : Bool) : State := { s with nmiLatched := b }
/-- The state with this stop request. -/
def State.withStop (s : State) (b : Bool) : State := { s with stopRequested := b }
/-- The state with this undefined-instruction bit. -/
def State.withUndef (s : State) (b : Bool) : State := { s with undefSeen := b }
/-- The state with this log. -/
def State.withLog (s : State) (l : List Event) : State := { s with log := l }
/-- The state with this memory. -/
def State.withMem (s : State) (m : Memory) : State := { s with mem := m }
/-- The state with this controller answer. -/
def State.withIntr (s : State) (a : Option Byte) : State := { s with intr := a }
/-- The state with this draw counter. -/
def State.withDraws (s : State) (k : Nat) : State := { s with draws := k }

/-- `record(event)`: append to the observation log (00_scope.md R13, 10_state.md R60). -/
def State.record (s : State) (e : Event) : State := s.withLog (s.log ++ [e])

/-! ### General and segment registers -/

/-- R16[i] (10_state.md R33). -/
def Regs.get (r : Regs) : Reg16 → Word
  | .ax => r.ax | .cx => r.cx | .dx => r.dx | .bx => r.bx | .sp => r.sp | .bp => r.bp | .si => r.si | .di => r.di

/-- R16[i] <- v. -/
def Regs.set (r : Regs) (i : Reg16) (v : Word) : Regs :=
  match i with
  | .ax => { r with ax := v }
  | .cx => { r with cx := v }
  | .dx => { r with dx := v }
  | .bx => { r with bx := v }
  | .sp => { r with sp := v }
  | .bp => { r with bp := v }
  | .si => { r with si := v }
  | .di => { r with di := v }

/-- The 16-bit register that holds an 8-bit one (10_state.md R32, R33). -/
def Reg8.parent : Reg8 → Reg16
  | .al | .ah => .ax | .cl | .ch => .cx | .dl | .dh => .dx | .bl | .bh => .bx

/-- Is the 8-bit register the high half (bits 15:8) of its parent? -/
def Reg8.isHigh : Reg8 → Bool
  | .al | .cl | .dl | .bl => false
  | .ah | .ch | .dh | .bh => true

/-- Read a 16-bit register. -/
def State.reg16 (s : State) (i : Reg16) : Word := s.regs.get i

/-- Write a 16-bit register. -/
def State.setReg16 (s : State) (i : Reg16) (v : Word) : State := s.withRegs (s.regs.set i v)

/-- R8[j] (10_state.md R33). -/
def State.reg8 (s : State) (j : Reg8) : Byte :=
  if Reg8.isHigh j then hiByte (s.reg16 (Reg8.parent j)) else loByte (s.reg16 (Reg8.parent j))

/-- R8[j] <- v: the other half of the parent is unchanged (10_state.md R32, R33). -/
def State.setReg8 (s : State) (j : Reg8) (v : Byte) : State :=
  let old := s.reg16 (Reg8.parent j)
  s.setReg16 (Reg8.parent j) (if Reg8.isHigh j then wordOf (loByte old) v else wordOf v (hiByte old))

/-- SR[i] (10_state.md R36). -/
def SRegs.get (r : SRegs) : SReg → Word
  | .es => r.es | .cs => r.cs | .ss => r.ss | .ds => r.ds

/-- SR[i] <- v. -/
def SRegs.set (r : SRegs) (i : SReg) (v : Word) : SRegs :=
  match i with
  | .es => { r with es := v }
  | .cs => { r with cs := v }
  | .ss => { r with ss := v }
  | .ds => { r with ds := v }

/-- Read a segment register. -/
def State.sreg (s : State) (i : SReg) : Word := s.sregs.get i

/-- Write a segment register. -/
def State.setSreg (s : State) (i : SReg) (v : Word) : State := s.withSregs (s.sregs.set i v)

/-! ### Addresses and memory -/

/-- `Linear(seg, off)` (20_memory.md R80): modulo 2^20. -/
def linear (seg off : Word) : Addr := seg.setWidth 20 * 16#20 + off.setWidth 20

/-- The byte at an address (20_memory.md R83, R84). -/
def Memory.read (m : Memory) (a : Nat) : Byte :=
  match m with
  | [] => Config.unlistedByte
  | (k, v) :: t => if k = a then v else Memory.read t a

/-- The memory with one byte replaced, in canonical form. -/
def Memory.write (m : Memory) (a : Nat) (v : Byte) : Memory :=
  match m with
  | [] => if v = Config.unlistedByte then [] else [(a, v)]
  | (k, w) :: t =>
    if a < k then (if v = Config.unlistedByte then (k, w) :: t else (a, v) :: (k, w) :: t)
    else if k = a then (if v = Config.unlistedByte then t else (a, v) :: t)
    else (k, w) :: Memory.write t a v

/-- The canonical form from address `lo` up: addresses rise strictly and stay below 2^20, and no entry equals
what an unlisted address reads as. -/
def Memory.wfFrom (lo : Nat) : Memory → Bool
  | [] => true
  | (k, v) :: t => decide (lo ≤ k) && decide (k < Config.memSize) && v != Config.unlistedByte && Memory.wfFrom (k + 1) t

/-- The canonical form of a memory. -/
def Memory.wf (m : Memory) : Bool := Memory.wfFrom 0 m

/-- The read-only region (20_memory.md R86). -/
def inRom (a : Addr) : Bool := decide (Config.romBase ≤ a.toNat)

/-- One byte's part of `MemWrite` (20_memory.md R85): dropped in the read-only region. -/
def Memory.store (m : Memory) (a : Addr) (v : Byte) : Memory :=
  if inRom a then m else m.write a.toNat v

/-- `MemRead(a, 1)` (20_memory.md R84). -/
def State.read8 (s : State) (a : Addr) : Byte := s.mem.read a.toNat

/-- `MemRead(a, 2)` (20_memory.md R84): the high byte at `(a + 1) mod 2^20`. -/
def State.read16 (s : State) (a : Addr) : Word := wordOf (s.read8 a) (s.read8 (a + 1))

/-- `MemWrite(a, 1, v)` (20_memory.md R85). -/
def State.write8 (s : State) (a : Addr) (v : Byte) : State :=
  (s.withMem (s.mem.store a v)).record (.memWrite a (.b v) (inRom a))

/-- `MemWrite(a, 2, v)` (20_memory.md R85): the check is made per byte. -/
def State.write16 (s : State) (a : Addr) (v : Word) : State :=
  (s.withMem ((s.mem.store a (loByte v)).store (a + 1) (hiByte v))).record
    (.memWrite a (.w v) (inRom a || inRom (a + 1)))

/-- Copy an image verbatim at a base address (70_reset_and_hazards.md R531): not a write, nothing recorded,
the read-only region included. DESIGN CHOICE (log entry 25): an image that runs past 0xFFFFF goes on at 0x00000; unsafe,
since the spec does not say what the loader does. -/
def Memory.load (m : Memory) (base : Addr) (image : List Byte) : Memory :=
  match image with
  | [] => m
  | b :: t => Memory.load (m.write base.toNat b) (base + 1) t

/-- Load an image into the machine before the pipeline starts. -/
def State.loadImage (s : State) (base : Addr) (image : List Byte) : State := s.withMem (s.mem.load base image)

/-- Load bytes at CS:IP, CS:IP+1, ..., offsets modulo 2^16, as instruction fetch reads them (20_memory.md R113). -/
def loadCode (seg off : Word) (bs : List Byte) (m : Memory) : Memory :=
  match bs with
  | [] => m
  | b :: t => loadCode seg (off + 1) t (m.write (linear seg off).toNat b)

/-! ### The stack -/

/-- `Push16(v)` (20_memory.md R94). -/
def State.push16 (s : State) (v : Word) : State :=
  let sp := s.reg16 .sp - 2
  (s.setReg16 .sp sp).write16 (linear (s.sreg .ss) sp) v

/-- The word `Pop16` returns (20_memory.md R95). -/
def State.top16 (s : State) : Word := s.read16 (linear (s.sreg .ss) (s.reg16 .sp))

/-- The state `Pop16` leaves: SP past the word (20_memory.md R95). -/
def State.drop16 (s : State) : State := s.setReg16 .sp (s.reg16 .sp + 2)

/-! ### Ports -/

/-- The value `PortIn(1, port)` draws (20_memory.md R100). -/
def State.portAnswer8 (s : State) : Byte := Config.portIn8 s.draws

/-- The value `PortIn(2, port)` draws: one call of width 16 (20_memory.md R100). -/
def State.portAnswer16 (s : State) : Word := Config.portIn16 s.draws

/-- The state after a port input of `v` (20_memory.md R100): the access is recorded and the draw spent. -/
def State.afterPortIn (s : State) (port : Word) (v : Datum) : State :=
  (s.record (.portIn port v)).withDraws (s.draws + 1)

/-- `PortOut(n, port, v)` (20_memory.md R101). -/
def State.portOut (s : State) (port : Word) (v : Datum) : State := s.record (.portOut port v)

/-! ### The prefetch queue (20_memory.md R110 to R113) -/

/-- The address a fault or refusal of this tick reports: `Linear(CS, IP)` (60_exceptions.md R482). -/
def State.insAddr (s : State) : Addr := linear (s.sreg .cs) s.ip

/-- `PQ.reset()` (20_memory.md R110). -/
def State.pqReset (s : State) : State := s.withPq []

/-- `PQ.fill(b)` (20_memory.md R111); `addr` is the tick's address. -/
def pqFill (addr : Addr) (q : List Byte) (b : Byte) : Except Fault (List Byte) :=
  if q.length = Config.pqCapacity then .error (.pqOverflow addr) else .ok (q ++ [b])

/-- `PQ.peek(k)` (20_memory.md R112). -/
def pqPeek (addr : Addr) (q : List Byte) (k : Nat) : Except Fault Byte :=
  match q[k]? with
  | some b => .ok b
  | none => .error (.pqUnderflow addr)

/-- The byte instruction fetch reads at offset IP + k of CS (20_memory.md R113). -/
def State.codeByte (s : State) (k : Nat) : Byte := s.read8 (linear (s.sreg .cs) (s.ip + BitVec.ofNat 16 k))

/-- The loop of `FetchInstructions()` with `n` bytes of room left (20_memory.md R113). -/
def fetchLoop (s : State) : Nat → List Byte → Except Fault (List Byte)
  | 0, q => .ok q
  | n + 1, q =>
    match pqFill s.insAddr q (s.codeByte q.length) with
    | .ok q' => fetchLoop s n q'
    | .error e => .error e

/-- `FetchInstructions()` (20_memory.md R113): fill the queue to its capacity; IP and CS do not move. -/
def State.fetchInstructions (s : State) : Except Fault State :=
  match fetchLoop s (Config.pqCapacity - s.pq.length) s.pq with
  | .ok q => .ok (s.withPq q)
  | .error e => .error e

/-! ### The decoded-instruction queue (20_memory.md R115, R116) -/

/-- `DQ.fill(ins)`. -/
def DQueue.fill (q : DQueue) (addr : Addr) (d : Decoded) : Except Fault DQueue :=
  if q.count = q.slots.length then .error (.dqFull addr)
  else .ok { q with slots := q.slots.set ((q.head + q.count) % q.slots.length) (some d), count := q.count + 1 }

/-- `DQ.fetch()`: the oldest instruction and the queue without it. -/
def DQueue.fetch (q : DQueue) (addr : Addr) : Except Fault (Decoded × DQueue) :=
  if q.count = 0 then .error (.dqEmpty addr)
  else
    match q.slots[q.head]? with
    | some (some d) =>
      .ok (d, { slots := q.slots.set q.head none, head := (q.head + 1) % q.slots.length, count := q.count - 1 })
    | _ => .error (.dqEmpty addr)

/-! ### Interrupt entry and return -/

/-- `FlagsImage()` of the machine (10_state.md R42). -/
def State.flagsImage (s : State) : Word := s.flags.image s.params.flagsReserved

/-- The address of vector `n`'s offset word; its segment word is two above (60_exceptions.md R487). -/
def vectorOffset (n : Byte) : Word := n.setWidth 16 * 4

/-- The pushes and flag clears of interrupt entry: flags image, IF and TF cleared, CS, IP (60_exceptions.md R490). -/
def State.interruptPushes (s : State) : State :=
  let s1 := s.push16 s.flagsImage
  let s2 := s1.withFlags { s1.flags with ifl := false, tf := false }
  let s3 := s2.push16 (s2.sreg .cs)
  s3.push16 s3.ip

/-- `Interrupt(n, source)` (60_exceptions.md R490): the one entry of every interrupt and trap. -/
def State.interrupt (s : State) (n : Byte) (source : IntSource) : State :=
  let t := s.interruptPushes
  let off := t.read16 (linear 0 (vectorOffset n))
  let sel := t.read16 (linear 0 (vectorOffset n + 2))
  (((t.withIp off).setSreg .cs sel).withHalted false).record (.intTaken n source)

/-- The return from an interrupt (43_control_transfer.md R393, 60_exceptions.md R496): pop IP, CS and the flags. -/
def State.interruptReturn (s : State) : State :=
  let s1 := s.drop16.withIp s.top16
  let s2 := s1.drop16.setSreg .cs s1.top16
  s2.drop16.withFlags (Flags.restore s2.top16)

end Sys2Proof.Machine
end

