-- ==== Sys2Proof/Machine/Operands.lean ====
section
/-! DEFINITION. Operand forms: the effective address (30_encoding.md R161 to R163, R165), reading and writing an
operand (R170, R171) at the one address computed at the start (R172), and the operand pairs of each form. -/

namespace Sys2Proof.Machine

/-! ### Effective address -/

/-- The base and index sum (30_encoding.md R162). -/
def State.baseSum (s : State) : Base → Word
  | .bxsi => s.reg16 .bx + s.reg16 .si
  | .bxdi => s.reg16 .bx + s.reg16 .di
  | .bpsi => s.reg16 .bp + s.reg16 .si
  | .bpdi => s.reg16 .bp + s.reg16 .di
  | .si => s.reg16 .si
  | .di => s.reg16 .di
  | .bp => s.reg16 .bp
  | .bx => s.reg16 .bx

/-- `EA(rm, mod, disp)` (30_encoding.md R162, R165), modulo 2^16. -/
def State.ea (s : State) : MemRef → Word
  | .noDisp b => s.baseSum b
  | .direct a => a
  | .disp8 b d => s.baseSum b + sext16 d
  | .disp16 b d => s.baseSum b + d

/-- The default segment of a base (30_encoding.md R162). -/
def baseSegment : Base → SReg
  | .bpsi | .bpdi | .bp => .ss
  | .bxsi | .bxdi | .si | .di | .bx => .ds

/-- The default segment of a memory operand (30_encoding.md R162). -/
def defaultSegment : MemRef → SReg
  | .direct _ => .ds
  | .noDisp b | .disp8 b _ | .disp16 b _ => baseSegment b

/-- The segment register a memory operand uses: the override in force, else the default (30_encoding.md R153, R163). -/
def segFor (p : List Pfx) (dflt : SReg) : SReg := (segOverride p).getD dflt

/-- The value of that segment register. -/
def State.segVal (s : State) (p : List Pfx) (dflt : SReg) : Word := s.sreg (segFor p dflt)

/-- The linear address of a memory operand (30_encoding.md R163). -/
def State.memAddr (s : State) (p : List Pfx) (m : MemRef) : Addr := linear (s.segVal p (defaultSegment m)) (s.ea m)

/-! ### Operand places -/

/-- Where an operand is, once its address is computed (30_encoding.md R172). -/
inductive Loc (ρ : Type) where
  | reg (r : ρ)
  | mem (a : Addr)
  deriving DecidableEq, Repr

/-- The place of an E operand, from the registers at the start of execution (30_encoding.md R172). -/
def State.loc {ρ : Type} (s : State) (p : List Pfx) : Ea ρ → Loc ρ
  | .reg r => .reg r
  | .mem m => .mem (s.memAddr p m)

/-- `Read` of a byte operand (30_encoding.md R170). -/
def State.readLoc8 (s : State) : Loc Reg8 → Byte
  | .reg r => s.reg8 r
  | .mem a => s.read8 a

/-- `Read` of a word operand (30_encoding.md R170). -/
def State.readLoc16 (s : State) : Loc Reg16 → Word
  | .reg r => s.reg16 r
  | .mem a => s.read16 a

/-- `Write` of a byte operand (30_encoding.md R171). -/
def State.writeLoc8 (s : State) (l : Loc Reg8) (v : Byte) : State :=
  match l with
  | .reg r => s.setReg8 r v
  | .mem a => s.write8 a v

/-- `Write` of a word operand (30_encoding.md R171). -/
def State.writeLoc16 (s : State) (l : Loc Reg16) (v : Word) : State :=
  match l with
  | .reg r => s.setReg16 r v
  | .mem a => s.write16 a v

/-- `Read` of a byte E operand. -/
def State.readEb (s : State) (p : List Pfx) (e : Ea Reg8) : Byte := s.readLoc8 (s.loc p e)

/-- `Read` of a word E operand. -/
def State.readEv (s : State) (p : List Pfx) (e : Ea Reg16) : Word := s.readLoc16 (s.loc p e)

/-- The far pointer at a memory operand: offset word, then segment word at EA + 2 in the same segment
(30_encoding.md R169). -/
def State.farPtr (s : State) (p : List Pfx) (m : MemRef) : Word × Word :=
  (s.read16 (s.memAddr p m), s.read16 (linear (s.segVal p (defaultSegment m)) (s.ea m + 2)))

/-! ### Operand pairs -/

/-- A destination place and the two operand values, at one of the two widths. -/
inductive Pair where
  | b (dst : Loc Reg8) (a c : Byte)
  | w (dst : Loc Reg16) (a c : Word)
  deriving DecidableEq, Repr

/-- `dst`, `a = Read(dst)` and `b = Read(src)` of a two-operand form (41_arith_logic.md R271). -/
def State.aluPair (s : State) (p : List Pfx) : AluForm → Pair
  | .ebGb e g => .b (s.loc p e) (s.readEb p e) (s.reg8 g)
  | .evGv e g => .w (s.loc p e) (s.readEv p e) (s.reg16 g)
  | .gbEb g e => .b (.reg g) (s.reg8 g) (s.readEb p e)
  | .gvEv g e => .w (.reg g) (s.reg16 g) (s.readEv p e)
  | .alIb i => .b (.reg .al) (s.reg8 .al) i
  | .axIw i => .w (.reg .ax) (s.reg16 .ax) i
  | .ebIb e i => .b (s.loc p e) (s.readEb p e) i
  | .ebIbAlias e i => .b (s.loc p e) (s.readEb p e) i
  | .evIw e i => .w (s.loc p e) (s.readEv p e) i
  | .evIbs e i => .w (s.loc p e) (s.readEv p e) (sext16 i)

/-- The operands of TEST (41_arith_logic.md R280); its first place is only read. -/
def State.testPair (s : State) (p : List Pfx) : TestForm → Pair
  | .ebGb e g => .b (s.loc p e) (s.readEb p e) (s.reg8 g)
  | .evGv e g => .w (s.loc p e) (s.readEv p e) (s.reg16 g)
  | .alIb i => .b (.reg .al) (s.reg8 .al) i
  | .axIw i => .w (.reg .ax) (s.reg16 .ax) i
  | .ebIb e i => .b (s.loc p e) (s.readEb p e) i
  | .evIw e i => .w (s.loc p e) (s.readEv p e) i

/-- A place and its value, at one of the two widths. -/
inductive Single where
  | b (dst : Loc Reg8) (a : Byte)
  | w (dst : Loc Reg16) (a : Word)
  deriving DecidableEq, Repr

/-- The operand of INC and DEC (41_arith_logic.md R281, R282). -/
def State.incSingle (s : State) (p : List Pfx) : IncForm → Single
  | .rw r => .w (.reg r) (s.reg16 r)
  | .eb e => .b (s.loc p e) (s.readEb p e)
  | .ev e => .w (s.loc p e) (s.readEv p e)

/-- The operand of NEG and NOT (41_arith_logic.md R283, R284). -/
def State.unarySingle (s : State) (p : List Pfx) : UnaryForm → Single
  | .eb e => .b (s.loc p e) (s.readEb p e)
  | .ev e => .w (s.loc p e) (s.readEv p e)

/-! ### Running an ALU function on operands (41_arith_logic.md R270) -/

/-- Call an ALU function and write the result to the destination. -/
def State.aluWrite (s : State) (fn : AluFn) : Pair → State
  | .b d a c => (s.withFlags (fn 8 s.flags a c).2).writeLoc8 d (fn 8 s.flags a c).1
  | .w d a c => (s.withFlags (fn 16 s.flags a c).2).writeLoc16 d (fn 16 s.flags a c).1

/-- Call an ALU function and discard the result (40_alu.md R249). -/
def State.aluDiscard (s : State) (fn : AluFn) : Pair → State
  | .b _ a c => s.withFlags (fn 8 s.flags a c).2
  | .w _ a c => s.withFlags (fn 16 s.flags a c).2

/-- The flags of a logical operation with result `r`: AF is a free value, one draw (40_alu.md R238). -/
def State.logicFlagsOf {n : Nat} (s : State) (r : BitVec n) : State :=
  (s.withFlags (logicFlags s.flags (Config.afDraw s.draws) r)).withDraws (s.draws + 1)

/-- Call a logical function and write the result to the destination. -/
def State.logicWrite (s : State) (fn : LogicFn) : Pair → State
  | .b d a c => (s.logicFlagsOf (fn 8 a c)).writeLoc8 d (fn 8 a c)
  | .w d a c => (s.logicFlagsOf (fn 16 a c)).writeLoc16 d (fn 16 a c)

/-- Call a logical function and discard the result (40_alu.md R248). -/
def State.logicDiscard (s : State) (fn : LogicFn) : Pair → State
  | .b _ a c => s.logicFlagsOf (fn 8 a c)
  | .w _ a c => s.logicFlagsOf (fn 16 a c)

/-- A one-operand ALU function: the flags before and the operand give a result and the flags after. -/
abbrev UnaryFn := (n : Nat) → Flags → BitVec n → BitVec n × Flags

/-- Call a one-operand ALU function and write the result back. -/
def State.unaryWrite (s : State) (fn : UnaryFn) : Single → State
  | .b d a => (s.withFlags (fn 8 s.flags a).2).writeLoc8 d (fn 8 s.flags a).1
  | .w d a => (s.withFlags (fn 16 s.flags a).2).writeLoc16 d (fn 16 s.flags a).1

end Sys2Proof.Machine
end

