-- ==== Sys2Proof/Machine/ArithLogic.lean ====
section
/-! DEFINITION. The meanings of the arithmetic and logic instructions (41_arith_logic.md). Each runs on a state
whose IP is already past the instruction (48_pipeline.md R456) and leaves IP there (R270). -/

namespace Sys2Proof.Machine

/-- What a meaning answers. -/
abbrev Result := Host.Outcome State Fault Refusal

/-- ADD (41_arith_logic.md R272). -/
def execAdd (p : List Pfx) (f : AluForm) (s : State) : Result := .next (s.aluWrite aluAdd (s.aluPair p f))

/-- OR (41_arith_logic.md R273). -/
def execOr (p : List Pfx) (f : AluForm) (s : State) : Result := .next (s.logicWrite logicOr (s.aluPair p f))

/-- ADC (41_arith_logic.md R274). -/
def execAdc (p : List Pfx) (f : AluForm) (s : State) : Result := .next (s.aluWrite aluAdc (s.aluPair p f))

/-- SBB (41_arith_logic.md R275). -/
def execSbb (p : List Pfx) (f : AluForm) (s : State) : Result := .next (s.aluWrite aluSbb (s.aluPair p f))

/-- AND (41_arith_logic.md R276). -/
def execAnd (p : List Pfx) (f : AluForm) (s : State) : Result := .next (s.logicWrite logicAnd (s.aluPair p f))

/-- SUB (41_arith_logic.md R277). -/
def execSub (p : List Pfx) (f : AluForm) (s : State) : Result := .next (s.aluWrite aluSub (s.aluPair p f))

/-- XOR (41_arith_logic.md R278). -/
def execXor (p : List Pfx) (f : AluForm) (s : State) : Result := .next (s.logicWrite logicXor (s.aluPair p f))

/-- CMP (41_arith_logic.md R279): `alu_cmp` is `alu_sub` with the result discarded (40_alu.md R249). -/
def execCmp (p : List Pfx) (f : AluForm) (s : State) : Result := .next (s.aluDiscard aluSub (s.aluPair p f))

/-- TEST (41_arith_logic.md R280). -/
def execTest (p : List Pfx) (f : TestForm) (s : State) : Result := .next (s.logicDiscard logicAnd (s.testPair p f))

/-- INC (41_arith_logic.md R281). -/
def execInc (p : List Pfx) (f : IncForm) (s : State) : Result :=
  .next (s.unaryWrite (fun _ fl a => aluInc fl a) (s.incSingle p f))

/-- DEC (41_arith_logic.md R282). -/
def execDec (p : List Pfx) (f : IncForm) (s : State) : Result :=
  .next (s.unaryWrite (fun _ fl a => aluDec fl a) (s.incSingle p f))

/-- NEG (41_arith_logic.md R283). -/
def execNeg (p : List Pfx) (f : UnaryForm) (s : State) : Result :=
  .next (s.unaryWrite (fun _ fl a => aluNeg fl a) (s.unarySingle p f))

/-- NOT (41_arith_logic.md R284): no flag is written. -/
def execNot (p : List Pfx) (f : UnaryForm) (s : State) : Result :=
  .next (s.unaryWrite (fun _ fl a => (~~~a, fl)) (s.unarySingle p f))

/-- CBW (41_arith_logic.md R285). -/
def execCbw (_p : List Pfx) (s : State) : Result := .next (s.setReg16 .ax (sext16 (s.reg8 .al)))

/-- CWD (41_arith_logic.md R286). -/
def execCwd (_p : List Pfx) (s : State) : Result :=
  .next (s.setReg16 .dx (if (s.reg16 .ax).msb then 0xFFFF else 0x0000))

end Sys2Proof.Machine
end

