-- ==== Sys2Proof/Machine/ControlTransfer.lean ====
section
/-! DEFINITION. The meanings of the control-transfer instructions (43_control_transfer.md). IP already holds the
address of the next instruction (R370). -/

namespace Sys2Proof.Machine

/-! ### Conditional jumps -/

/-- A relative transfer: `IP <- (IP + disp) mod 2^16` (43_control_transfer.md R370). -/
def State.jumpRel (s : State) (d : Word) : State := s.withIp (s.ip + d)

/-- A conditional short transfer; not taken, IP stays at the advanced value (43_control_transfer.md R370, R372). -/
def State.jumpIf (s : State) (c : Bool) (d : Byte) : State := if c then s.jumpRel (sext16 d) else s

/-- JO: taken when OF = 1 (43_control_transfer.md R371, R372). -/
def execJo (_p : List Pfx) (d : Byte) (s : State) : Result := .next (s.jumpIf (condO s.flags) d)

/-- JNO: taken when OF = 0 (43_control_transfer.md R371, R372). -/
def execJno (_p : List Pfx) (d : Byte) (s : State) : Result := .next (s.jumpIf (!condO s.flags) d)

/-- JB: taken when CF = 1 (43_control_transfer.md R371, R372). -/
def execJb (_p : List Pfx) (d : Byte) (s : State) : Result := .next (s.jumpIf (condB s.flags) d)

/-- JNB: taken when CF = 0 (43_control_transfer.md R371, R372). -/
def execJnb (_p : List Pfx) (d : Byte) (s : State) : Result := .next (s.jumpIf (!condB s.flags) d)

/-- JZ: taken when ZF = 1 (43_control_transfer.md R371, R372). -/
def execJz (_p : List Pfx) (d : Byte) (s : State) : Result := .next (s.jumpIf (condZ s.flags) d)

/-- JNZ: taken when ZF = 0 (43_control_transfer.md R371, R372). -/
def execJnz (_p : List Pfx) (d : Byte) (s : State) : Result := .next (s.jumpIf (!condZ s.flags) d)

/-- JBE: taken when CF = 1 or ZF = 1 (43_control_transfer.md R371, R372). -/
def execJbe (_p : List Pfx) (d : Byte) (s : State) : Result := .next (s.jumpIf (condBe s.flags) d)

/-- JA: taken when CF = 0 and ZF = 0 (43_control_transfer.md R371, R372). -/
def execJa (_p : List Pfx) (d : Byte) (s : State) : Result := .next (s.jumpIf (!condBe s.flags) d)

/-- JS: taken when SF = 1 (43_control_transfer.md R371, R372). -/
def execJs (_p : List Pfx) (d : Byte) (s : State) : Result := .next (s.jumpIf (condS s.flags) d)

/-- JNS: taken when SF = 0 (43_control_transfer.md R371, R372). -/
def execJns (_p : List Pfx) (d : Byte) (s : State) : Result := .next (s.jumpIf (!condS s.flags) d)

/-- JP: taken when PF = 1 (43_control_transfer.md R371, R372). -/
def execJp (_p : List Pfx) (d : Byte) (s : State) : Result := .next (s.jumpIf (condP s.flags) d)

/-- JNP: taken when PF = 0 (43_control_transfer.md R371, R372). -/
def execJnp (_p : List Pfx) (d : Byte) (s : State) : Result := .next (s.jumpIf (!condP s.flags) d)

/-- JL: taken when SF != OF (43_control_transfer.md R371, R372). -/
def execJl (_p : List Pfx) (d : Byte) (s : State) : Result := .next (s.jumpIf (condL s.flags) d)

/-- JGE: taken when SF = OF (43_control_transfer.md R371, R372). -/
def execJge (_p : List Pfx) (d : Byte) (s : State) : Result := .next (s.jumpIf (!condL s.flags) d)

/-- JLE: taken when ZF = 1 or SF != OF (43_control_transfer.md R371, R372). -/
def execJle (_p : List Pfx) (d : Byte) (s : State) : Result := .next (s.jumpIf (condLe s.flags) d)

/-- JG: taken when ZF = 0 and SF = OF (43_control_transfer.md R371, R372). -/
def execJg (_p : List Pfx) (d : Byte) (s : State) : Result := .next (s.jumpIf (!condLe s.flags) d)

/-! ### Jumps -/

/-- A far transfer: CS and IP (43_control_transfer.md R370). -/
def State.jumpFar (s : State) (off sel : Word) : State := (s.withIp off).setSreg .cs sel

/-- JMP Jb (43_control_transfer.md R373). -/
def execJmpShort (_p : List Pfx) (d : Byte) (s : State) : Result := .next (s.jumpRel (sext16 d))

/-- JMP Jw (43_control_transfer.md R374). -/
def execJmpNear (_p : List Pfx) (d : Word) (s : State) : Result := .next (s.jumpRel d)

/-- JMP Ap (43_control_transfer.md R375). -/
def execJmpFar (_p : List Pfx) (off sel : Word) (s : State) : Result := .next (s.jumpFar off sel)

/-- JMP Ev (43_control_transfer.md R376). -/
def execJmpRm (p : List Pfx) (e : Ea Reg16) (s : State) : Result := .next (s.withIp (s.readEv p e))

/-- JMP Mp (43_control_transfer.md R377). -/
def execJmpMem (p : List Pfx) (m : MemRef) (s : State) : Result := .next (s.jumpFar (s.farPtr p m).1 (s.farPtr p m).2)

/-! ### Loops -/

/-- CX decremented without touching a flag, then a jump if it is not zero and `c` holds
(43_control_transfer.md R378 to R380). -/
def State.loopIf (s : State) (c : Bool) (d : Byte) : State :=
  (s.setReg16 .cx (s.reg16 .cx - 1)).jumpIf (s.reg16 .cx - 1 != 0 && c) d

/-- LOOP (43_control_transfer.md R378). -/
def execLoop (_p : List Pfx) (d : Byte) (s : State) : Result := .next (s.loopIf true d)

/-- LOOPE (43_control_transfer.md R379). -/
def execLoope (_p : List Pfx) (d : Byte) (s : State) : Result := .next (s.loopIf s.flags.zf d)

/-- LOOPNE (43_control_transfer.md R380). -/
def execLoopne (_p : List Pfx) (d : Byte) (s : State) : Result := .next (s.loopIf (!s.flags.zf) d)

/-- JCXZ (43_control_transfer.md R381). -/
def execJcxz (_p : List Pfx) (d : Byte) (s : State) : Result := .next (s.jumpIf (s.reg16 .cx == 0) d)

/-! ### Calls and returns -/

/-- The two pushes of a far call: CS, then IP (43_control_transfer.md R383, R385). -/
def State.pushFarReturn (s : State) : State := (s.push16 (s.sreg .cs)).push16 s.ip

/-- CALL Jw (43_control_transfer.md R382). -/
def execCallNear (_p : List Pfx) (d : Word) (s : State) : Result := .next ((s.push16 s.ip).jumpRel d)

/-- CALL Ap (43_control_transfer.md R383). -/
def execCallFar (_p : List Pfx) (off sel : Word) (s : State) : Result := .next (s.pushFarReturn.jumpFar off sel)

/-- CALL Ev (43_control_transfer.md R384): the target is read before the push. -/
def execCallRm (p : List Pfx) (e : Ea Reg16) (s : State) : Result := .next ((s.push16 s.ip).withIp (s.readEv p e))

/-- CALL Mp (43_control_transfer.md R385): the pointer is read before the pushes. -/
def execCallMem (p : List Pfx) (m : MemRef) (s : State) : Result :=
  .next (s.pushFarReturn.jumpFar (s.farPtr p m).1 (s.farPtr p m).2)

/-- `IP <- Pop16()` (43_control_transfer.md R386). -/
def State.popIp (s : State) : State := s.drop16.withIp s.top16

/-- `IP <- Pop16(); CS <- Pop16()` (43_control_transfer.md R388). -/
def State.popFar (s : State) : State := s.popIp.drop16.setSreg .cs s.popIp.top16

/-- `SP <- (SP + imm) mod 2^16` (43_control_transfer.md R387). -/
def State.releaseStack (s : State) (i : Word) : State := s.setReg16 .sp (s.reg16 .sp + i)

/-- RET (43_control_transfer.md R386). -/
def execRet (_p : List Pfx) (s : State) : Result := .next s.popIp

/-- RET Iw (43_control_transfer.md R387). -/
def execRetImm (_p : List Pfx) (i : Word) (s : State) : Result := .next (s.popIp.releaseStack i)

/-- RETF (43_control_transfer.md R388). -/
def execRetf (_p : List Pfx) (s : State) : Result := .next s.popFar

/-- RETF Iw (43_control_transfer.md R389). -/
def execRetfImm (_p : List Pfx) (i : Word) (s : State) : Result := .next (s.popFar.releaseStack i)

/-! ### Software interrupts -/

/-- INT Ib (43_control_transfer.md R390). -/
def execInt (_p : List Pfx) (n : Byte) (s : State) : Result := .next (s.interrupt n .software)

/-- INT3 (43_control_transfer.md R391). -/
def execInt3 (_p : List Pfx) (s : State) : Result := .next (s.interrupt 3 .software)

/-- INTO (43_control_transfer.md R392). -/
def execInto (_p : List Pfx) (s : State) : Result := .next (if s.flags.of then s.interrupt 4 .software else s)

/-- IRET (43_control_transfer.md R393). -/
def execIret (_p : List Pfx) (s : State) : Result := .next s.interruptReturn

end Sys2Proof.Machine
end

