-- ==== Sys2Proof/Machine/DataTransfer.lean ====
section
/-! DEFINITION. The meanings of the data-transfer, stack, flag-transfer and port instructions
(42_data_transfer.md). None writes IP (R320). -/

namespace Sys2Proof.Machine

/-! ### Moves -/

/-- MOV between a register and a register or memory operand (42_data_transfer.md R321). -/
def execMovRm (p : List Pfx) (f : MovForm) (s : State) : Result :=
  match f with
  | .ebGb e g => .next (s.writeLoc8 (s.loc p e) (s.reg8 g))
  | .evGv e g => .next (s.writeLoc16 (s.loc p e) (s.reg16 g))
  | .gbEb g e => .next (s.setReg8 g (s.readEb p e))
  | .gvEv g e => .next (s.setReg16 g (s.readEv p e))

/-- MOV Ew,Sw (42_data_transfer.md R322). -/
def execMovFromSeg (p : List Pfx) (e : Ea Reg16) (g : SReg) (s : State) : Result :=
  .next (s.writeLoc16 (s.loc p e) (s.sreg g))

/-- MOV Sw,Ew (42_data_transfer.md R323). -/
def execMovToSeg (p : List Pfx) (g : SReg) (e : Ea Reg16) (s : State) : Result :=
  .next (s.setSreg g (s.readEv p e))

/-- The linear address of a direct offset: DS or the override (42_data_transfer.md R324). -/
def State.moffsAddr (s : State) (p : List Pfx) (off : Word) : Addr := linear (s.segVal p .ds) off

/-- MOV AL,Ow and MOV AX,Ow (42_data_transfer.md R324). -/
def execMovAccMoffs (p : List Pfx) (w : Width) (off : Word) (s : State) : Result :=
  match w with
  | .byte => .next (s.setReg8 .al (s.read8 (s.moffsAddr p off)))
  | .word => .next (s.setReg16 .ax (s.read16 (s.moffsAddr p off)))

/-- MOV Ow,AL and MOV Ow,AX (42_data_transfer.md R325). -/
def execMovMoffsAcc (p : List Pfx) (w : Width) (off : Word) (s : State) : Result :=
  match w with
  | .byte => .next (s.write8 (s.moffsAddr p off) (s.reg8 .al))
  | .word => .next (s.write16 (s.moffsAddr p off) (s.reg16 .ax))

/-- MOV rb,Ib (42_data_transfer.md R326). -/
def execMovRbIb (_p : List Pfx) (r : Reg8) (i : Byte) (s : State) : Result := .next (s.setReg8 r i)

/-- MOV rw,Iw (42_data_transfer.md R327). -/
def execMovRwIw (_p : List Pfx) (r : Reg16) (i : Word) (s : State) : Result := .next (s.setReg16 r i)

/-- MOV Eb,Ib and MOV Ev,Iw (42_data_transfer.md R328). -/
def execMovRmImm (p : List Pfx) (f : MovImmForm) (s : State) : Result :=
  match f with
  | .ebIb e i => .next (s.writeLoc8 (s.loc p e) i)
  | .evIw e i => .next (s.writeLoc16 (s.loc p e) i)

/-! ### Exchange and no-operation -/

/-- XCHG Eb,Gb and XCHG Ev,Gv (42_data_transfer.md R330): both are read, then E is written, then G. -/
def execXchgRm (p : List Pfx) (f : XchgForm) (s : State) : Result :=
  match f with
  | .ebGb e g => .next ((s.writeLoc8 (s.loc p e) (s.reg8 g)).setReg8 g (s.readEb p e))
  | .evGv e g => .next ((s.writeLoc16 (s.loc p e) (s.reg16 g)).setReg16 g (s.readEv p e))

/-- XCHG AX,rw (42_data_transfer.md R330): E is AX, G is rw. -/
def execXchgAx (_p : List Pfx) (r : Reg16) (s : State) : Result :=
  .next ((s.setReg16 .ax (s.reg16 r)).setReg16 r (s.reg16 .ax))

/-- NOP (42_data_transfer.md R331). -/
def execNop (_p : List Pfx) (s : State) : Result := .next s

/-! ### Address loads and translation -/

/-- LEA (42_data_transfer.md R332): the offset itself; an override is ignored. -/
def execLea (_p : List Pfx) (g : Reg16) (m : MemRef) (s : State) : Result := .next (s.setReg16 g (s.ea m))

/-- LDS (42_data_transfer.md R333): both words are read before either register is written. -/
def execLds (p : List Pfx) (g : Reg16) (m : MemRef) (s : State) : Result :=
  .next ((s.setReg16 g (s.farPtr p m).1).setSreg .ds (s.farPtr p m).2)

/-- LES (42_data_transfer.md R334). -/
def execLes (p : List Pfx) (g : Reg16) (m : MemRef) (s : State) : Result :=
  .next ((s.setReg16 g (s.farPtr p m).1).setSreg .es (s.farPtr p m).2)

/-- XLAT (42_data_transfer.md R335). -/
def execXlat (p : List Pfx) (s : State) : Result :=
  .next (s.setReg8 .al (s.read8 (linear (s.segVal p .ds) (s.reg16 .bx + (s.reg8 .al).setWidth 16))))

/-! ### Stack -/

/-- The value PUSH SP pushes (42_data_transfer.md R342). -/
def State.pushSpValue (s : State) : Word :=
  match s.params.pushSp with
  | .new => s.reg16 .sp - 2
  | .old => s.reg16 .sp

/-- The value a push of a word register pushes: the register, but for SP (42_data_transfer.md R340, R342). -/
def State.pushValue (s : State) (r : Reg16) : Word :=
  if r = .sp then s.pushSpValue else s.reg16 r

/-- PUSH rw (42_data_transfer.md R340, R342). -/
def execPushRw (_p : List Pfx) (r : Reg16) (s : State) : Result := .next (s.push16 (s.pushValue r))

/-- PUSH Sr (42_data_transfer.md R341). -/
def execPushSr (_p : List Pfx) (g : SReg) (s : State) : Result := .next (s.push16 (s.sreg g))

/-- PUSH Ev (42_data_transfer.md R343): the operand is read before SP is decremented; naming SP is R342. -/
def execPushRm (p : List Pfx) (e : Ea Reg16) (s : State) : Result :=
  match e with
  | .reg r => .next (s.push16 (s.pushValue r))
  | .mem m => .next (s.push16 (s.read16 (s.memAddr p m)))

/-- POP rw (42_data_transfer.md R344): POP SP leaves the popped word in SP. -/
def execPopRw (_p : List Pfx) (r : Reg16) (s : State) : Result := .next (s.drop16.setReg16 r s.top16)

/-- POP Sr (42_data_transfer.md R345). -/
def execPopSr (_p : List Pfx) (g : SReg) (s : State) : Result := .next (s.drop16.setSreg g s.top16)

/-- POP Ev (42_data_transfer.md R346): the address is computed from the registers at the start. -/
def execPopRm (p : List Pfx) (e : Ea Reg16) (s : State) : Result := .next (s.drop16.writeLoc16 (s.loc p e) s.top16)

/-! ### Flag transfers -/

/-- PUSHF (42_data_transfer.md R347). -/
def execPushf (_p : List Pfx) (s : State) : Result := .next (s.push16 s.flagsImage)

/-- POPF (42_data_transfer.md R348). -/
def execPopf (_p : List Pfx) (s : State) : Result := .next (s.drop16.withFlags (Flags.restore s.top16))

/-- LAHF (42_data_transfer.md R349). -/
def execLahf (_p : List Pfx) (s : State) : Result := .next (s.setReg8 .ah (loByte s.flagsImage))

/-- SAHF (42_data_transfer.md R352). -/
def execSahf (_p : List Pfx) (s : State) : Result := .next (s.withFlags (s.flags.loadLow (s.reg8 .ah)))

/-! ### Ports -/

/-- `PortIn` into the accumulator (42_data_transfer.md R350). -/
def State.inAcc (s : State) (w : Width) (port : Word) : State :=
  match w with
  | .byte => (s.afterPortIn port (.b s.portAnswer8)).setReg8 .al s.portAnswer8
  | .word => (s.afterPortIn port (.w s.portAnswer16)).setReg16 .ax s.portAnswer16

/-- `PortOut` of the accumulator (42_data_transfer.md R351). -/
def State.outAcc (s : State) (w : Width) (port : Word) : State :=
  match w with
  | .byte => s.portOut port (.b (s.reg8 .al))
  | .word => s.portOut port (.w (s.reg16 .ax))

/-- IN AL,Ib and IN AX,Ib (42_data_transfer.md R350). -/
def execInImm (_p : List Pfx) (w : Width) (port : Byte) (s : State) : Result := .next (s.inAcc w (port.setWidth 16))

/-- IN AL,DX and IN AX,DX (42_data_transfer.md R350). -/
def execInDx (_p : List Pfx) (w : Width) (s : State) : Result := .next (s.inAcc w (s.reg16 .dx))

/-- OUT Ib,AL and OUT Ib,AX (42_data_transfer.md R351). -/
def execOutImm (_p : List Pfx) (w : Width) (port : Byte) (s : State) : Result := .next (s.outAcc w (port.setWidth 16))

/-- OUT DX,AL and OUT DX,AX (42_data_transfer.md R351). -/
def execOutDx (_p : List Pfx) (w : Width) (s : State) : Result := .next (s.outAcc w (s.reg16 .dx))

end Sys2Proof.Machine
end

