-- ==== Sys2Proof/Machine/Generic.lean ====
section
/-! DEFINITION. The generic instruction (30_encoding.md R180 to R182), and the prefix bytes that decode to it in the
opcode position (R152). -/

namespace Sys2Proof.Machine

/-- The address of the first byte of the instruction being executed: IP is past its `len` bytes
(48_pipeline.md R456; log entry 19). -/
def State.startAddr (s : State) (len : Nat) : Addr := linear (s.sreg .cs) (s.ip - BitVec.ofNat 16 len)

/-- Execute the generic instruction with these bytes (30_encoding.md R182): with `noop_report` it sets
`undef_seen` and records `Undefined`; with `fault` it raises UNDEFINED_INSTRUCTION. -/
def State.genericEffect (s : State) (bytes : List Byte) : Result :=
  match s.params.unknownMode with
  | .noopReport => .next ((s.withUndef true).record (.undefined (s.startAddr bytes.length) bytes))
  | .fault => .fault (.undefinedInstruction (s.startAddr bytes.length) bytes)

/-- (unknown): the generic instruction of an unknown encoding (30_encoding.md R180, R182). -/
def execGeneric (p : List Pfx) (u : UnknownEnc) (s : State) : Result := s.genericEffect (Instr.generic p u).bytes

/-- SEG in the opcode position: a fifth prefix byte (30_encoding.md R152). -/
def execSegByte (p : List Pfx) (g : SReg) (s : State) : Result := s.genericEffect (Instr.segByte p g).bytes

/-- REPNE in the opcode position (30_encoding.md R152). -/
def execRepneByte (p : List Pfx) (s : State) : Result := s.genericEffect (Instr.repneByte p).bytes

/-- REP in the opcode position (30_encoding.md R152). -/
def execRepByte (p : List Pfx) (s : State) : Result := s.genericEffect (Instr.repByte p).bytes

end Sys2Proof.Machine
end

