-- ==== Sys2Proof/Machine/ProcessorControl.lean ====
section
/-! DEFINITION. The meanings of the processor-control instructions (44_processor_control.md). Each writes one flag or
the halted bit and nothing else (R420). -/

namespace Sys2Proof.Machine

/-- CLC (44_processor_control.md R421). -/
def execClc (_p : List Pfx) (s : State) : Result := .next (s.withFlags { s.flags with cf := false })

/-- STC (44_processor_control.md R422). -/
def execStc (_p : List Pfx) (s : State) : Result := .next (s.withFlags { s.flags with cf := true })

/-- CMC (44_processor_control.md R423). -/
def execCmc (_p : List Pfx) (s : State) : Result := .next (s.withFlags { s.flags with cf := !s.flags.cf })

/-- CLI (44_processor_control.md R424). -/
def execCli (_p : List Pfx) (s : State) : Result := .next (s.withFlags { s.flags with ifl := false })

/-- STI (44_processor_control.md R425). -/
def execSti (_p : List Pfx) (s : State) : Result := .next (s.withFlags { s.flags with ifl := true })

/-- CLD (44_processor_control.md R426). -/
def execCld (_p : List Pfx) (s : State) : Result := .next (s.withFlags { s.flags with df := false })

/-- STD (44_processor_control.md R427). -/
def execStd (_p : List Pfx) (s : State) : Result := .next (s.withFlags { s.flags with df := true })

/-- HLT (44_processor_control.md R428). -/
def execHlt (_p : List Pfx) (s : State) : Result := .next (s.withHalted true)

end Sys2Proof.Machine
end

