-- ==== Sys2Proof/Machine/Refused.lean ====
section
/-! DEFINITION. The meanings of the encodings the spec itself refuses (30_encoding.md R192, 60_exceptions.md R483):
documented 8086 instructions it gives no semantics. The tick asks for these at decode, before the IP advance, so IP
still holds the instruction's first byte (48_pipeline.md R454). -/

namespace Sys2Proof.Machine

/-- `refuse(NOT_ADMITTED(opcode, ext))` (60_exceptions.md R485), with addr = Linear(CS, IP) (R483). -/
def State.refuseNotAdmitted (s : State) (opcode : Byte) (ext : Option Oct) : Result :=
  .refused (.notAdmitted opcode ext s.insAddr)

/-- DAA, 0x27 (30_encoding.md R192). -/
def execDaa (_p : List Pfx) (s : State) : Result := s.refuseNotAdmitted 0x27 none

/-- DAS, 0x2F (30_encoding.md R192). -/
def execDas (_p : List Pfx) (s : State) : Result := s.refuseNotAdmitted 0x2F none

/-- AAA, 0x37 (30_encoding.md R192). -/
def execAaa (_p : List Pfx) (s : State) : Result := s.refuseNotAdmitted 0x37 none

/-- AAS, 0x3F (30_encoding.md R192). -/
def execAas (_p : List Pfx) (s : State) : Result := s.refuseNotAdmitted 0x3F none

/-- WAIT, 0x9B (30_encoding.md R192). -/
def execWait (_p : List Pfx) (s : State) : Result := s.refuseNotAdmitted 0x9B none

/-- MOVSB, 0xA4 (30_encoding.md R192). -/
def execMovsb (_p : List Pfx) (s : State) : Result := s.refuseNotAdmitted 0xA4 none

/-- MOVSW, 0xA5 (30_encoding.md R192). -/
def execMovsw (_p : List Pfx) (s : State) : Result := s.refuseNotAdmitted 0xA5 none

/-- CMPSB, 0xA6 (30_encoding.md R192). -/
def execCmpsb (_p : List Pfx) (s : State) : Result := s.refuseNotAdmitted 0xA6 none

/-- CMPSW, 0xA7 (30_encoding.md R192). -/
def execCmpsw (_p : List Pfx) (s : State) : Result := s.refuseNotAdmitted 0xA7 none

/-- STOSB, 0xAA (30_encoding.md R192). -/
def execStosb (_p : List Pfx) (s : State) : Result := s.refuseNotAdmitted 0xAA none

/-- STOSW, 0xAB (30_encoding.md R192). -/
def execStosw (_p : List Pfx) (s : State) : Result := s.refuseNotAdmitted 0xAB none

/-- LODSB, 0xAC (30_encoding.md R192). -/
def execLodsb (_p : List Pfx) (s : State) : Result := s.refuseNotAdmitted 0xAC none

/-- LODSW, 0xAD (30_encoding.md R192). -/
def execLodsw (_p : List Pfx) (s : State) : Result := s.refuseNotAdmitted 0xAD none

/-- SCASB, 0xAE (30_encoding.md R192). -/
def execScasb (_p : List Pfx) (s : State) : Result := s.refuseNotAdmitted 0xAE none

/-- SCASW, 0xAF (30_encoding.md R192). -/
def execScasw (_p : List Pfx) (s : State) : Result := s.refuseNotAdmitted 0xAF none

/-- AAM, 0xD4 (30_encoding.md R192). -/
def execAam (_p : List Pfx) (s : State) : Result := s.refuseNotAdmitted 0xD4 none

/-- AAD, 0xD5 (30_encoding.md R192). -/
def execAad (_p : List Pfx) (s : State) : Result := s.refuseNotAdmitted 0xD5 none

/-- LOCK, 0xF0 (30_encoding.md R192). -/
def execLock (_p : List Pfx) (s : State) : Result := s.refuseNotAdmitted 0xF0 none

/-- The opcode of a shift or rotate form (30_encoding.md R195). -/
def shiftOpcode : ShiftForm → Byte
  | .eb1 => 0xD0
  | .ev1 => 0xD1
  | .ebCl => 0xD2
  | .evCl => 0xD3

/-- SHIFT_ROTATE, 0xD0 to 0xD3 (30_encoding.md R192). -/
def execShiftRotate (_p : List Pfx) (f : ShiftForm) (s : State) : Result := s.refuseNotAdmitted (shiftOpcode f) none

/-- ESC, 0xD8 to 0xDF (30_encoding.md R192). -/
def execEsc (_p : List Pfx) (k : Oct) (s : State) : Result := s.refuseNotAdmitted (octal .q3 .o3 k) none

/-- MUL, 0xF6 or 0xF7 with reg = 4 (30_encoding.md R192, R197). -/
def execMul (_p : List Pfx) (w : Width) (_md : Quad) (_rm : Oct) (s : State) : Result :=
  s.refuseNotAdmitted (w.op 0xF6) (some .o4)

/-- IMUL, 0xF6 or 0xF7 with reg = 5 (30_encoding.md R192, R197). -/
def execImul (_p : List Pfx) (w : Width) (_md : Quad) (_rm : Oct) (s : State) : Result :=
  s.refuseNotAdmitted (w.op 0xF6) (some .o5)

/-- DIV, 0xF6 or 0xF7 with reg = 6 (30_encoding.md R192, R197). -/
def execDiv (_p : List Pfx) (w : Width) (_md : Quad) (_rm : Oct) (s : State) : Result :=
  s.refuseNotAdmitted (w.op 0xF6) (some .o6)

/-- IDIV, 0xF6 or 0xF7 with reg = 7 (30_encoding.md R192, R197). -/
def execIdiv (_p : List Pfx) (w : Width) (_md : Quad) (_rm : Oct) (s : State) : Result :=
  s.refuseNotAdmitted (w.op 0xF6) (some .o7)

end Sys2Proof.Machine
end

