-- ==== Sys2Proof/Machine/Dispatch.lean ====
section
/-! DEFINITION. One arm per instruction: the call of its meaning. -/

namespace Sys2Proof.Machine

/-- The meaning of a decoded instruction on a state whose IP is past it; for a refused encoding, on the state at its
decode (48_pipeline.md R458, R454). -/
def exec (i : Instr) (s : State) : Host.Outcome State Fault Refusal :=
  match i with
  | .add p f => Sys2Proof.Machine.execAdd p f s
  | .lor p f => Sys2Proof.Machine.execOr p f s
  | .adc p f => Sys2Proof.Machine.execAdc p f s
  | .sbb p f => Sys2Proof.Machine.execSbb p f s
  | .land p f => Sys2Proof.Machine.execAnd p f s
  | .sub p f => Sys2Proof.Machine.execSub p f s
  | .lxor p f => Sys2Proof.Machine.execXor p f s
  | .cmp p f => Sys2Proof.Machine.execCmp p f s
  | .test p f => Sys2Proof.Machine.execTest p f s
  | .inc p f => Sys2Proof.Machine.execInc p f s
  | .dec p f => Sys2Proof.Machine.execDec p f s
  | .neg p f => Sys2Proof.Machine.execNeg p f s
  | .lnot p f => Sys2Proof.Machine.execNot p f s
  | .cbw p => Sys2Proof.Machine.execCbw p s
  | .cwd p => Sys2Proof.Machine.execCwd p s
  | .movRm p f => Sys2Proof.Machine.execMovRm p f s
  | .movFromSeg p e g => Sys2Proof.Machine.execMovFromSeg p e g s
  | .movToSeg p g e => Sys2Proof.Machine.execMovToSeg p g e s
  | .movAccMoffs p w off => Sys2Proof.Machine.execMovAccMoffs p w off s
  | .movMoffsAcc p w off => Sys2Proof.Machine.execMovMoffsAcc p w off s
  | .movRbIb p r v => Sys2Proof.Machine.execMovRbIb p r v s
  | .movRwIw p r v => Sys2Proof.Machine.execMovRwIw p r v s
  | .movRmImm p f => Sys2Proof.Machine.execMovRmImm p f s
  | .xchgRm p f => Sys2Proof.Machine.execXchgRm p f s
  | .xchgAx p r => Sys2Proof.Machine.execXchgAx p r s
  | .nop p => Sys2Proof.Machine.execNop p s
  | .lea p g m => Sys2Proof.Machine.execLea p g m s
  | .lds p g m => Sys2Proof.Machine.execLds p g m s
  | .les p g m => Sys2Proof.Machine.execLes p g m s
  | .xlat p => Sys2Proof.Machine.execXlat p s
  | .pushRw p r => Sys2Proof.Machine.execPushRw p r s
  | .pushSr p g => Sys2Proof.Machine.execPushSr p g s
  | .pushRm p e => Sys2Proof.Machine.execPushRm p e s
  | .popRw p r => Sys2Proof.Machine.execPopRw p r s
  | .popSr p g => Sys2Proof.Machine.execPopSr p g s
  | .popRm p e => Sys2Proof.Machine.execPopRm p e s
  | .pushf p => Sys2Proof.Machine.execPushf p s
  | .popf p => Sys2Proof.Machine.execPopf p s
  | .lahf p => Sys2Proof.Machine.execLahf p s
  | .sahf p => Sys2Proof.Machine.execSahf p s
  | .inImm p w port => Sys2Proof.Machine.execInImm p w port s
  | .inDx p w => Sys2Proof.Machine.execInDx p w s
  | .outImm p w port => Sys2Proof.Machine.execOutImm p w port s
  | .outDx p w => Sys2Proof.Machine.execOutDx p w s
  | .jo p d => Sys2Proof.Machine.execJo p d s
  | .jno p d => Sys2Proof.Machine.execJno p d s
  | .jb p d => Sys2Proof.Machine.execJb p d s
  | .jnb p d => Sys2Proof.Machine.execJnb p d s
  | .jz p d => Sys2Proof.Machine.execJz p d s
  | .jnz p d => Sys2Proof.Machine.execJnz p d s
  | .jbe p d => Sys2Proof.Machine.execJbe p d s
  | .ja p d => Sys2Proof.Machine.execJa p d s
  | .js p d => Sys2Proof.Machine.execJs p d s
  | .jns p d => Sys2Proof.Machine.execJns p d s
  | .jp p d => Sys2Proof.Machine.execJp p d s
  | .jnp p d => Sys2Proof.Machine.execJnp p d s
  | .jl p d => Sys2Proof.Machine.execJl p d s
  | .jge p d => Sys2Proof.Machine.execJge p d s
  | .jle p d => Sys2Proof.Machine.execJle p d s
  | .jg p d => Sys2Proof.Machine.execJg p d s
  | .jmpShort p d => Sys2Proof.Machine.execJmpShort p d s
  | .jmpNear p d => Sys2Proof.Machine.execJmpNear p d s
  | .jmpFar p off sel => Sys2Proof.Machine.execJmpFar p off sel s
  | .jmpRm p e => Sys2Proof.Machine.execJmpRm p e s
  | .jmpMem p m => Sys2Proof.Machine.execJmpMem p m s
  | .loop p d => Sys2Proof.Machine.execLoop p d s
  | .loope p d => Sys2Proof.Machine.execLoope p d s
  | .loopne p d => Sys2Proof.Machine.execLoopne p d s
  | .jcxz p d => Sys2Proof.Machine.execJcxz p d s
  | .callNear p d => Sys2Proof.Machine.execCallNear p d s
  | .callFar p off sel => Sys2Proof.Machine.execCallFar p off sel s
  | .callRm p e => Sys2Proof.Machine.execCallRm p e s
  | .callMem p m => Sys2Proof.Machine.execCallMem p m s
  | .ret p => Sys2Proof.Machine.execRet p s
  | .retImm p v => Sys2Proof.Machine.execRetImm p v s
  | .retf p => Sys2Proof.Machine.execRetf p s
  | .retfImm p v => Sys2Proof.Machine.execRetfImm p v s
  | .int p n => Sys2Proof.Machine.execInt p n s
  | .int3 p => Sys2Proof.Machine.execInt3 p s
  | .into p => Sys2Proof.Machine.execInto p s
  | .iret p => Sys2Proof.Machine.execIret p s
  | .clc p => Sys2Proof.Machine.execClc p s
  | .stc p => Sys2Proof.Machine.execStc p s
  | .cmc p => Sys2Proof.Machine.execCmc p s
  | .cli p => Sys2Proof.Machine.execCli p s
  | .sti p => Sys2Proof.Machine.execSti p s
  | .cld p => Sys2Proof.Machine.execCld p s
  | .std p => Sys2Proof.Machine.execStd p s
  | .hlt p => Sys2Proof.Machine.execHlt p s
  | .daa p => Sys2Proof.Machine.execDaa p s
  | .das p => Sys2Proof.Machine.execDas p s
  | .aaa p => Sys2Proof.Machine.execAaa p s
  | .aas p => Sys2Proof.Machine.execAas p s
  | .wait p => Sys2Proof.Machine.execWait p s
  | .movsb p => Sys2Proof.Machine.execMovsb p s
  | .movsw p => Sys2Proof.Machine.execMovsw p s
  | .cmpsb p => Sys2Proof.Machine.execCmpsb p s
  | .cmpsw p => Sys2Proof.Machine.execCmpsw p s
  | .stosb p => Sys2Proof.Machine.execStosb p s
  | .stosw p => Sys2Proof.Machine.execStosw p s
  | .lodsb p => Sys2Proof.Machine.execLodsb p s
  | .lodsw p => Sys2Proof.Machine.execLodsw p s
  | .scasb p => Sys2Proof.Machine.execScasb p s
  | .scasw p => Sys2Proof.Machine.execScasw p s
  | .shiftRotate p f => Sys2Proof.Machine.execShiftRotate p f s
  | .aam p => Sys2Proof.Machine.execAam p s
  | .aad p => Sys2Proof.Machine.execAad p s
  | .esc p k => Sys2Proof.Machine.execEsc p k s
  | .lock p => Sys2Proof.Machine.execLock p s
  | .mul p w md rm => Sys2Proof.Machine.execMul p w md rm s
  | .imul p w md rm => Sys2Proof.Machine.execImul p w md rm s
  | .div p w md rm => Sys2Proof.Machine.execDiv p w md rm s
  | .idiv p w md rm => Sys2Proof.Machine.execIdiv p w md rm s
  | .segByte p g => Sys2Proof.Machine.execSegByte p g s
  | .repneByte p => Sys2Proof.Machine.execRepneByte p s
  | .repByte p => Sys2Proof.Machine.execRepByte p s
  | .generic p u => Sys2Proof.Machine.execGeneric p u s

end Sys2Proof.Machine
end

