-- ==== Sys2Proof/Machine/Pipeline.lean ====
section
/-! DEFINITION. The pipeline tick (48_pipeline.md R450), the run driver (R460) and the acts of the host (R470).
One step of the machine is one tick, but for a tick in single-step mode: its first part, up to the StepWait, is one
step, and the rest, once the host has resumed it, is another (log entry 9). -/

namespace Sys2Proof.Machine

/-! ### The parts of a tick -/

/-- The maskable request this tick sees: asked only when IF = 1 (48_pipeline.md R452). -/
def State.maskableRequest (s : State) : Option Byte := if s.flags.ifl then s.intr else none

/-- A non-maskable interrupt is taken: the latch is cleared, vector 2 (48_pipeline.md R450, 60_exceptions.md R491). -/
def State.takeNmi (s : State) : State := (s.withNmi false).interrupt 2 .nmi

/-- A maskable interrupt is taken (60_exceptions.md R492). -/
def State.takeIntr (s : State) (n : Byte) : State := s.interrupt n .intr

/-- `IP <- (IP + ins.len) mod 2^16` (48_pipeline.md R456). -/
def State.advance (s : State) (len : Nat) : State := s.withIp (s.ip + BitVec.ofNat 16 len)

/-- After execute: with TF_MODE = int1 and TF set before, the trap; then back to Fetching (48_pipeline.md R450,
60_exceptions.md R498). -/
def State.finish (s : State) (tf0 : Bool) : State :=
  (if tf0 && s.params.tfMode == .int1 then s.interrupt 1 .trap else s).withStage .fetching

/-- The execute stage of decoded instruction `i` (48_pipeline.md R458). -/
def State.execute (s : State) (i : Instr) : Result :=
  match exec i (s.withStage .executing) with
  | .next t => .next (t.finish s.flags.tf)
  | .fault r => .fault r
  | .refused r => .refused r

/-- The StepWait of decoded instruction `d`: the listener is notified and the pipeline waits (48_pipeline.md R457). `pq0`
is the prefetch queue at the start of the tick. -/
def State.enterWait (s : State) (d : Decoded) (pq0 : List Byte) : State :=
  (s.withStage (.stepWait d pq0 false)).record .stepNotify

/-- The decoded instruction passes through DQ (48_pipeline.md R455). -/
def State.throughDq (s : State) (d : Decoded) : Except Fault (Decoded × State) :=
  match s.dq.fill s.insAddr d with
  | .error e => .error e
  | .ok q =>
    match q.fetch s.insAddr with
    | .error e => .error e
    | .ok (d', q') => .ok (d', s.withDq q')

/-- The record of an instruction decoded at this state: its `addr` is Linear(CS, IP) (30_encoding.md R140). -/
def State.decodedRecord (s : State) (i : Instr) : Decoded := { instr := i, addr := s.insAddr, bytes := i.bytes }

/-- A tick's work on the instruction it has decoded: DQ, IP advance, single step, execute (48_pipeline.md R450). A
refused encoding is refused here, before anything changes (R454). `pq0` is the prefetch queue at the start. -/
def State.afterDecode (s : State) (pq0 : List Byte) (i : Instr) : Result :=
  if i.isRefused then exec i s
  else
    match s.throughDq (s.decodedRecord i) with
    | .error e => .fault e
    | .ok (d, t) =>
      let t' := t.advance d.instr.len
      if t'.stepMode then .next (t'.enterWait d pq0) else t'.execute d.instr

/-- Fetch and decode (48_pipeline.md R453, R454). -/
def State.fetchDecode (s : State) : Result :=
  match s.pqReset.fetchInstructions with
  | .error e => .fault e
  | .ok t =>
    match decode t.pq with
    | none => .fault (.pqUnderflow t.insAddr)
    | some i => (t.withStage .decoding).afterDecode s.pq i

/-- A tick from its start (48_pipeline.md R450): stop, NMI, maskable request, halted, TF, fetch. `Stopped` and
`Halted` change nothing (R451, R452, R459). -/
def State.startTick (s : State) : Result :=
  if s.stopRequested then .next s
  else if s.nmiLatched then .next s.takeNmi
  else
    match s.maskableRequest with
    | some n => .next (s.takeIntr n)
    | none =>
      if s.halted then .next s
      else if s.flags.tf && s.params.tfMode == .refuse then .refused (.tfTrapUnmodelled s.insAddr)
      else s.fetchDecode

/-- One step: a waiting pipeline waits until it is resumed, and then executes (48_pipeline.md R457); otherwise a tick
starts. -/
def tick (s : State) : Result :=
  match s.stage with
  | .stepWait d _ true => s.execute d.instr
  | .stepWait _ _ false => .next s
  | .fetching | .decoding | .executing => (s.withStage .fetching).startTick

/-! ### Tick results -/

/-- The result of a tick (48_pipeline.md R459); `waiting` is a tick in its StepWait, not yet ended (R457). -/
inductive TickResult where
  | goesOn
  | halted
  | stopped
  | waiting
  | fault (r : Fault)
  | refused (r : Refusal)
  deriving DecidableEq, Repr

/-- The result `Continue`, `Halted`, `Stopped`, `Fault` or `Refused` of the tick at a state (48_pipeline.md R459). -/
def tickResult (s : State) : TickResult :=
  match tick s with
  | .fault r => .fault r
  | .refused r => .refused r
  | .next t =>
    match s.stage, t.stage with
    | .stepWait _ _ true, _ => .goesOn
    | _, .stepWait _ _ _ => .waiting
    | _, _ =>
      if s.stopRequested then .stopped
      else if s.nmiLatched || s.maskableRequest.isSome then .goesOn
      else if s.halted then .halted
      else .goesOn

/-- The decoded-instruction queue before an instruction passed through it: the head is one slot back. -/
def DQueue.unpass (q : DQueue) : DQueue := { q with head := (q.head + (q.slots.length - 1)) % q.slots.length }

/-- The state that a fault or a refusal of the tick leaves: the one at the tick's start, but that a StepNotify already
recorded stays in the log (48_pipeline.md R454). After a StepWait that takes back the stage, IP, PQ and DQ.
DESIGN CHOICE (log entry 26): a stop request that the host made during that wait stays; unsafe, since R454 does not say
whether it does. -/
def State.stopState (s : State) : State :=
  match s.stage with
  | .stepWait d pq0 _ =>
    (((s.withIp (s.ip - BitVec.ofNat 16 d.instr.len)).withPq pq0).withDq s.dq.unpass).withStage .fetching
  | .fetching | .decoding | .executing => s.withStage .fetching

/-! ### The host (48_pipeline.md R470) -/

/-- An act of the host. Port answers are free values (log entry 6) and the launch state is `Launch`. -/
inductive HostAct where
  /-- assert NMI, between ticks -/
  | assertNmi
  /-- what the controller will answer to the next query: not pending, or pending with a vector -/
  | answerIntr (a : Option Byte)
  /-- toggle step mode, between ticks -/
  | toggleStep
  /-- the resume signal -/
  | resume
  /-- the stop request, between ticks or during a StepWait -/
  | requestStop
  deriving DecidableEq, Repr

/-- Is the pipeline in a StepWait? -/
def State.isWaiting (s : State) : Bool :=
  match s.stage with
  | .stepWait _ _ _ => true
  | .fetching | .decoding | .executing => false

/-- What an act of the host does to the state (48_pipeline.md R470); `none` when the block does not take the input at
that time. A resume outside a StepWait is discarded (R457). -/
def State.hostAct (s : State) : HostAct → Option State
  | .assertNmi => if s.isWaiting then none else some (s.withNmi true)
  | .answerIntr a => if s.isWaiting then none else some (s.withIntr a)
  | .toggleStep => if s.isWaiting then none else some (s.withStepMode (!s.stepMode))
  | .resume =>
    match s.stage with
    | .stepWait d pq0 _ => some (s.withStage (.stepWait d pq0 true))
    | .fetching | .decoding | .executing => some s
  | .requestStop => some (s.withStop true)

/-- What some acts of the host in a row do; `none` when the block does not take one of them. -/
def State.hostActs (s : State) : List HostAct → Option State
  | [] => some s
  | a :: as =>
    match s.hostAct a with
    | some t => t.hostActs as
    | none => none

/-! ### The run driver (48_pipeline.md R460) -/

/-- One turn of the run driver's loop: it returns with a result and the state that is left, or goes on. -/
inductive Turn where
  | returns (r : TickResult) (t : State)
  | goesOn (t : State)
  deriving DecidableEq, Repr

/-- The turn of the loop at a state: it returns at Stopped, Fault or Refused (48_pipeline.md R460), with the state that
these leave (R451, R454). -/
def State.turn (s : State) : Turn :=
  match tick s with
  | .fault r => .returns (.fault r) s.stopState
  | .refused r => .returns (.refused r) s.stopState
  | .next t => if tickResult s = .stopped then .returns .stopped s else .goesOn t

/-- `Run()` for at most `n` steps with no act of the host; `none` means the loop is still going. -/
def runTicks : Nat → State → Option TickResult × State
  | 0, s => (none, s)
  | n + 1, s =>
    match s.turn with
    | .returns r t => (some r, t)
    | .goesOn t => runTicks n t

/-- A run for a choice of the host's inputs (48_pipeline.md R470, R472): the acts of the host before each step, in order;
the run goes on while there is an entry. Its result, its end state and that state's log are what the run observes. It is
`none` when the block does not take one of the acts at its time, so that no host can make that choice (log entry 8). -/
def runHosted : List (List HostAct) → State → Option (Option TickResult × State)
  | [], s => some (none, s)
  | acts :: rest, s =>
    match s.hostActs acts with
    | none => none
    | some u =>
      match u.turn with
      | .returns r t => some (some r, t)
      | .goesOn t => runHosted rest t

/-! ### Placing an instruction for the next step -/

/-- The state with these bytes loaded where the next tick fetches: at CS:IP, offsets modulo 2^16, the read-only region
included (loading, 70_reset_and_hazards.md R531; log entry 15). -/
def State.placeAtIp (s : State) (bs : List Byte) : State := s.withMem (loadCode (s.sreg .cs) s.ip bs s.mem)

end Sys2Proof.Machine
end

