-- ==== Sys2Proof/Machine/Step.lean ====
section
/-! DEFINITION. The machine's step, and the host's way of placing one instruction for it. -/

namespace Sys2Proof.Machine

/-- One step of the machine (48_pipeline.md R450). -/
def step : State → Host.Outcome State Fault Refusal := tick

/-- The state with the instruction of a table word, zeros after it, where `step` fetches next (log entry 15). -/
def State.withFetchWord (s : State) (nbits w : Nat) : State := s.placeAtIp (tableWordQueue nbits w)

end Sys2Proof.Machine
end

