-- ==== Sys2Proof/Machine/Templates.lean ====
section
/-! DEFINITION. The template table: the rows of spec/opcode_table.json by ascending opcode, then ascending `reg`
(30_encoding.md R130, R133), as masks and match values over the opcode byte and the byte after it; and the mnemonic, the
class and the kind of a decoded instruction. The decoder of Sys2Proof/Decode.lean is the lookup that R142 gives; this table
is the ordered scan it stands for. -/

namespace Sys2Proof

/-- The class of a row (30_encoding.md R195). -/
inductive EncodingClass where
  | admitted
  | refused
  | unknown
  | pfx
  deriving DecidableEq, Repr

/-- The mnemonics of spec/opcode_table.json; `lor`, `land`, `lxor`, `lnot`, `inp` and `unknown` are its OR, AND, XOR,
NOT, IN and (unknown). -/
inductive Mnemonic where
  | add | lor | adc | sbb | land | sub | lxor | cmp
  | push | pop | unknown | seg | daa | das | aaa | aas
  | inc | dec | jo | jno | jb | jnb | jz | jnz
  | jbe | ja | js | jns | jp | jnp | jl | jge
  | jle | jg | test | xchg | mov | lea | nop | cbw
  | cwd | call | wait | pushf | popf | sahf | lahf | movsb
  | movsw | cmpsb | cmpsw | stosb | stosw | lodsb | lodsw | scasb
  | scasw | ret | les | lds | retf | int3 | int | into
  | iret | shiftRotate | aam | aad | xlat | esc | loopne | loope
  | loop | jcxz | inp | out | jmp | lock | repne | rep
  | hlt | cmc | lnot | neg | mul | imul | div | idiv
  | clc | stc | cli | sti | cld | std
  deriving DecidableEq, Repr

/-- A template's predicate (30_encoding.md R131, R132): an opcode byte followed by `m` matches when
`(op * 256 + m) & mask = value` and, for a memory-only row (`memOnly`), the `mod` field of `m` is not 11. -/
structure Template where
  mask : Nat
  value : Nat
  memOnly : Bool
  name : Mnemonic
  cls : EncodingClass
  deriving DecidableEq, Repr

/-- "Can you decode the bytes at this position" (30_encoding.md R130). -/
def Template.accepts (r : Template) (op m : Byte) : Bool :=
  (op.toNat * 256 + m.toNat) &&& r.mask == r.value && (!r.memOnly || m.toNat / 64 != 3)

/-- The opcode a row claims. -/
def Template.opcode (r : Template) : Byte := BitVec.ofNat 8 (r.value / 256)

/-- The `reg` field a row requires, if its mask fixes one (30_encoding.md R196 to R201). -/
def Template.ext (r : Template) : Option Oct :=
  if r.mask &&& 0x38 == 0x38 then some (mid3 (BitVec.ofNat 8 r.value)) else none

/-- The place of a row in the fixed order: its opcode, then its `reg` field (30_encoding.md R133). -/
def Template.rank (r : Template) : Nat := r.opcode.toNat * 8 + (r.ext.map Oct.toNat).getD 0

/-- The kind of the instructions a row decodes to: its own, or GENERIC for the unknown encodings and the prefix bytes
(30_encoding.md R140, R180). -/
def Template.kind (r : Template) : Kind :=
  match r.cls with
  | .admitted | .refused => .row r.opcode r.ext
  | .unknown | .pfx => .generic

/-- Rows 0 to 31. -/
def templateRows0 : List Template := [
  ⟨0xFF00, 0x0000, false, .add, .admitted⟩,
  ⟨0xFF00, 0x0100, false, .add, .admitted⟩,
  ⟨0xFF00, 0x0200, false, .add, .admitted⟩,
  ⟨0xFF00, 0x0300, false, .add, .admitted⟩,
  ⟨0xFF00, 0x0400, false, .add, .admitted⟩,
  ⟨0xFF00, 0x0500, false, .add, .admitted⟩,
  ⟨0xFF00, 0x0600, false, .push, .admitted⟩,
  ⟨0xFF00, 0x0700, false, .pop, .admitted⟩,
  ⟨0xFF00, 0x0800, false, .lor, .admitted⟩,
  ⟨0xFF00, 0x0900, false, .lor, .admitted⟩,
  ⟨0xFF00, 0x0A00, false, .lor, .admitted⟩,
  ⟨0xFF00, 0x0B00, false, .lor, .admitted⟩,
  ⟨0xFF00, 0x0C00, false, .lor, .admitted⟩,
  ⟨0xFF00, 0x0D00, false, .lor, .admitted⟩,
  ⟨0xFF00, 0x0E00, false, .push, .admitted⟩,
  ⟨0xFF00, 0x0F00, false, .unknown, .unknown⟩,
  ⟨0xFF00, 0x1000, false, .adc, .admitted⟩,
  ⟨0xFF00, 0x1100, false, .adc, .admitted⟩,
  ⟨0xFF00, 0x1200, false, .adc, .admitted⟩,
  ⟨0xFF00, 0x1300, false, .adc, .admitted⟩,
  ⟨0xFF00, 0x1400, false, .adc, .admitted⟩,
  ⟨0xFF00, 0x1500, false, .adc, .admitted⟩,
  ⟨0xFF00, 0x1600, false, .push, .admitted⟩,
  ⟨0xFF00, 0x1700, false, .pop, .admitted⟩,
  ⟨0xFF00, 0x1800, false, .sbb, .admitted⟩,
  ⟨0xFF00, 0x1900, false, .sbb, .admitted⟩,
  ⟨0xFF00, 0x1A00, false, .sbb, .admitted⟩,
  ⟨0xFF00, 0x1B00, false, .sbb, .admitted⟩,
  ⟨0xFF00, 0x1C00, false, .sbb, .admitted⟩,
  ⟨0xFF00, 0x1D00, false, .sbb, .admitted⟩,
  ⟨0xFF00, 0x1E00, false, .push, .admitted⟩,
  ⟨0xFF00, 0x1F00, false, .pop, .admitted⟩]

/-- Rows 32 to 63. -/
def templateRows1 : List Template := [
  ⟨0xFF00, 0x2000, false, .land, .admitted⟩,
  ⟨0xFF00, 0x2100, false, .land, .admitted⟩,
  ⟨0xFF00, 0x2200, false, .land, .admitted⟩,
  ⟨0xFF00, 0x2300, false, .land, .admitted⟩,
  ⟨0xFF00, 0x2400, false, .land, .admitted⟩,
  ⟨0xFF00, 0x2500, false, .land, .admitted⟩,
  ⟨0xFF00, 0x2600, false, .seg, .pfx⟩,
  ⟨0xFF00, 0x2700, false, .daa, .refused⟩,
  ⟨0xFF00, 0x2800, false, .sub, .admitted⟩,
  ⟨0xFF00, 0x2900, false, .sub, .admitted⟩,
  ⟨0xFF00, 0x2A00, false, .sub, .admitted⟩,
  ⟨0xFF00, 0x2B00, false, .sub, .admitted⟩,
  ⟨0xFF00, 0x2C00, false, .sub, .admitted⟩,
  ⟨0xFF00, 0x2D00, false, .sub, .admitted⟩,
  ⟨0xFF00, 0x2E00, false, .seg, .pfx⟩,
  ⟨0xFF00, 0x2F00, false, .das, .refused⟩,
  ⟨0xFF00, 0x3000, false, .lxor, .admitted⟩,
  ⟨0xFF00, 0x3100, false, .lxor, .admitted⟩,
  ⟨0xFF00, 0x3200, false, .lxor, .admitted⟩,
  ⟨0xFF00, 0x3300, false, .lxor, .admitted⟩,
  ⟨0xFF00, 0x3400, false, .lxor, .admitted⟩,
  ⟨0xFF00, 0x3500, false, .lxor, .admitted⟩,
  ⟨0xFF00, 0x3600, false, .seg, .pfx⟩,
  ⟨0xFF00, 0x3700, false, .aaa, .refused⟩,
  ⟨0xFF00, 0x3800, false, .cmp, .admitted⟩,
  ⟨0xFF00, 0x3900, false, .cmp, .admitted⟩,
  ⟨0xFF00, 0x3A00, false, .cmp, .admitted⟩,
  ⟨0xFF00, 0x3B00, false, .cmp, .admitted⟩,
  ⟨0xFF00, 0x3C00, false, .cmp, .admitted⟩,
  ⟨0xFF00, 0x3D00, false, .cmp, .admitted⟩,
  ⟨0xFF00, 0x3E00, false, .seg, .pfx⟩,
  ⟨0xFF00, 0x3F00, false, .aas, .refused⟩]

/-- Rows 64 to 95. -/
def templateRows2 : List Template := [
  ⟨0xFF00, 0x4000, false, .inc, .admitted⟩,
  ⟨0xFF00, 0x4100, false, .inc, .admitted⟩,
  ⟨0xFF00, 0x4200, false, .inc, .admitted⟩,
  ⟨0xFF00, 0x4300, false, .inc, .admitted⟩,
  ⟨0xFF00, 0x4400, false, .inc, .admitted⟩,
  ⟨0xFF00, 0x4500, false, .inc, .admitted⟩,
  ⟨0xFF00, 0x4600, false, .inc, .admitted⟩,
  ⟨0xFF00, 0x4700, false, .inc, .admitted⟩,
  ⟨0xFF00, 0x4800, false, .dec, .admitted⟩,
  ⟨0xFF00, 0x4900, false, .dec, .admitted⟩,
  ⟨0xFF00, 0x4A00, false, .dec, .admitted⟩,
  ⟨0xFF00, 0x4B00, false, .dec, .admitted⟩,
  ⟨0xFF00, 0x4C00, false, .dec, .admitted⟩,
  ⟨0xFF00, 0x4D00, false, .dec, .admitted⟩,
  ⟨0xFF00, 0x4E00, false, .dec, .admitted⟩,
  ⟨0xFF00, 0x4F00, false, .dec, .admitted⟩,
  ⟨0xFF00, 0x5000, false, .push, .admitted⟩,
  ⟨0xFF00, 0x5100, false, .push, .admitted⟩,
  ⟨0xFF00, 0x5200, false, .push, .admitted⟩,
  ⟨0xFF00, 0x5300, false, .push, .admitted⟩,
  ⟨0xFF00, 0x5400, false, .push, .admitted⟩,
  ⟨0xFF00, 0x5500, false, .push, .admitted⟩,
  ⟨0xFF00, 0x5600, false, .push, .admitted⟩,
  ⟨0xFF00, 0x5700, false, .push, .admitted⟩,
  ⟨0xFF00, 0x5800, false, .pop, .admitted⟩,
  ⟨0xFF00, 0x5900, false, .pop, .admitted⟩,
  ⟨0xFF00, 0x5A00, false, .pop, .admitted⟩,
  ⟨0xFF00, 0x5B00, false, .pop, .admitted⟩,
  ⟨0xFF00, 0x5C00, false, .pop, .admitted⟩,
  ⟨0xFF00, 0x5D00, false, .pop, .admitted⟩,
  ⟨0xFF00, 0x5E00, false, .pop, .admitted⟩,
  ⟨0xFF00, 0x5F00, false, .pop, .admitted⟩]

/-- Rows 96 to 127. -/
def templateRows3 : List Template := [
  ⟨0xFF00, 0x6000, false, .unknown, .unknown⟩,
  ⟨0xFF00, 0x6100, false, .unknown, .unknown⟩,
  ⟨0xFF00, 0x6200, false, .unknown, .unknown⟩,
  ⟨0xFF00, 0x6300, false, .unknown, .unknown⟩,
  ⟨0xFF00, 0x6400, false, .unknown, .unknown⟩,
  ⟨0xFF00, 0x6500, false, .unknown, .unknown⟩,
  ⟨0xFF00, 0x6600, false, .unknown, .unknown⟩,
  ⟨0xFF00, 0x6700, false, .unknown, .unknown⟩,
  ⟨0xFF00, 0x6800, false, .unknown, .unknown⟩,
  ⟨0xFF00, 0x6900, false, .unknown, .unknown⟩,
  ⟨0xFF00, 0x6A00, false, .unknown, .unknown⟩,
  ⟨0xFF00, 0x6B00, false, .unknown, .unknown⟩,
  ⟨0xFF00, 0x6C00, false, .unknown, .unknown⟩,
  ⟨0xFF00, 0x6D00, false, .unknown, .unknown⟩,
  ⟨0xFF00, 0x6E00, false, .unknown, .unknown⟩,
  ⟨0xFF00, 0x6F00, false, .unknown, .unknown⟩,
  ⟨0xFF00, 0x7000, false, .jo, .admitted⟩,
  ⟨0xFF00, 0x7100, false, .jno, .admitted⟩,
  ⟨0xFF00, 0x7200, false, .jb, .admitted⟩,
  ⟨0xFF00, 0x7300, false, .jnb, .admitted⟩,
  ⟨0xFF00, 0x7400, false, .jz, .admitted⟩,
  ⟨0xFF00, 0x7500, false, .jnz, .admitted⟩,
  ⟨0xFF00, 0x7600, false, .jbe, .admitted⟩,
  ⟨0xFF00, 0x7700, false, .ja, .admitted⟩,
  ⟨0xFF00, 0x7800, false, .js, .admitted⟩,
  ⟨0xFF00, 0x7900, false, .jns, .admitted⟩,
  ⟨0xFF00, 0x7A00, false, .jp, .admitted⟩,
  ⟨0xFF00, 0x7B00, false, .jnp, .admitted⟩,
  ⟨0xFF00, 0x7C00, false, .jl, .admitted⟩,
  ⟨0xFF00, 0x7D00, false, .jge, .admitted⟩,
  ⟨0xFF00, 0x7E00, false, .jle, .admitted⟩,
  ⟨0xFF00, 0x7F00, false, .jg, .admitted⟩]

/-- Rows 128 to 159. -/
def templateRows4 : List Template := [
  ⟨0xFF38, 0x8000, false, .add, .admitted⟩,
  ⟨0xFF38, 0x8008, false, .lor, .admitted⟩,
  ⟨0xFF38, 0x8010, false, .adc, .admitted⟩,
  ⟨0xFF38, 0x8018, false, .sbb, .admitted⟩,
  ⟨0xFF38, 0x8020, false, .land, .admitted⟩,
  ⟨0xFF38, 0x8028, false, .sub, .admitted⟩,
  ⟨0xFF38, 0x8030, false, .lxor, .admitted⟩,
  ⟨0xFF38, 0x8038, false, .cmp, .admitted⟩,
  ⟨0xFF38, 0x8100, false, .add, .admitted⟩,
  ⟨0xFF38, 0x8108, false, .lor, .admitted⟩,
  ⟨0xFF38, 0x8110, false, .adc, .admitted⟩,
  ⟨0xFF38, 0x8118, false, .sbb, .admitted⟩,
  ⟨0xFF38, 0x8120, false, .land, .admitted⟩,
  ⟨0xFF38, 0x8128, false, .sub, .admitted⟩,
  ⟨0xFF38, 0x8130, false, .lxor, .admitted⟩,
  ⟨0xFF38, 0x8138, false, .cmp, .admitted⟩,
  ⟨0xFF38, 0x8200, false, .add, .admitted⟩,
  ⟨0xFF38, 0x8208, false, .lor, .admitted⟩,
  ⟨0xFF38, 0x8210, false, .adc, .admitted⟩,
  ⟨0xFF38, 0x8218, false, .sbb, .admitted⟩,
  ⟨0xFF38, 0x8220, false, .land, .admitted⟩,
  ⟨0xFF38, 0x8228, false, .sub, .admitted⟩,
  ⟨0xFF38, 0x8230, false, .lxor, .admitted⟩,
  ⟨0xFF38, 0x8238, false, .cmp, .admitted⟩,
  ⟨0xFF38, 0x8300, false, .add, .admitted⟩,
  ⟨0xFF38, 0x8308, false, .lor, .admitted⟩,
  ⟨0xFF38, 0x8310, false, .adc, .admitted⟩,
  ⟨0xFF38, 0x8318, false, .sbb, .admitted⟩,
  ⟨0xFF38, 0x8320, false, .land, .admitted⟩,
  ⟨0xFF38, 0x8328, false, .sub, .admitted⟩,
  ⟨0xFF38, 0x8330, false, .lxor, .admitted⟩,
  ⟨0xFF38, 0x8338, false, .cmp, .admitted⟩]

/-- Rows 160 to 191. -/
def templateRows5 : List Template := [
  ⟨0xFF00, 0x8400, false, .test, .admitted⟩,
  ⟨0xFF00, 0x8500, false, .test, .admitted⟩,
  ⟨0xFF00, 0x8600, false, .xchg, .admitted⟩,
  ⟨0xFF00, 0x8700, false, .xchg, .admitted⟩,
  ⟨0xFF00, 0x8800, false, .mov, .admitted⟩,
  ⟨0xFF00, 0x8900, false, .mov, .admitted⟩,
  ⟨0xFF00, 0x8A00, false, .mov, .admitted⟩,
  ⟨0xFF00, 0x8B00, false, .mov, .admitted⟩,
  ⟨0xFF38, 0x8C00, false, .mov, .admitted⟩,
  ⟨0xFF38, 0x8C08, false, .mov, .admitted⟩,
  ⟨0xFF38, 0x8C10, false, .mov, .admitted⟩,
  ⟨0xFF38, 0x8C18, false, .mov, .admitted⟩,
  ⟨0xFF38, 0x8C20, false, .unknown, .unknown⟩,
  ⟨0xFF38, 0x8C28, false, .unknown, .unknown⟩,
  ⟨0xFF38, 0x8C30, false, .unknown, .unknown⟩,
  ⟨0xFF38, 0x8C38, false, .unknown, .unknown⟩,
  ⟨0xFF00, 0x8D00, true, .lea, .admitted⟩,
  ⟨0xFFC0, 0x8DC0, false, .unknown, .unknown⟩,
  ⟨0xFF38, 0x8E00, false, .mov, .admitted⟩,
  ⟨0xFF38, 0x8E08, false, .unknown, .unknown⟩,
  ⟨0xFF38, 0x8E10, false, .mov, .admitted⟩,
  ⟨0xFF38, 0x8E18, false, .mov, .admitted⟩,
  ⟨0xFF38, 0x8E20, false, .unknown, .unknown⟩,
  ⟨0xFF38, 0x8E28, false, .unknown, .unknown⟩,
  ⟨0xFF38, 0x8E30, false, .unknown, .unknown⟩,
  ⟨0xFF38, 0x8E38, false, .unknown, .unknown⟩,
  ⟨0xFF38, 0x8F00, false, .pop, .admitted⟩,
  ⟨0xFF38, 0x8F08, false, .unknown, .unknown⟩,
  ⟨0xFF38, 0x8F10, false, .unknown, .unknown⟩,
  ⟨0xFF38, 0x8F18, false, .unknown, .unknown⟩,
  ⟨0xFF38, 0x8F20, false, .unknown, .unknown⟩,
  ⟨0xFF38, 0x8F28, false, .unknown, .unknown⟩]

/-- Rows 192 to 223. -/
def templateRows6 : List Template := [
  ⟨0xFF38, 0x8F30, false, .unknown, .unknown⟩,
  ⟨0xFF38, 0x8F38, false, .unknown, .unknown⟩,
  ⟨0xFF00, 0x9000, false, .nop, .admitted⟩,
  ⟨0xFF00, 0x9100, false, .xchg, .admitted⟩,
  ⟨0xFF00, 0x9200, false, .xchg, .admitted⟩,
  ⟨0xFF00, 0x9300, false, .xchg, .admitted⟩,
  ⟨0xFF00, 0x9400, false, .xchg, .admitted⟩,
  ⟨0xFF00, 0x9500, false, .xchg, .admitted⟩,
  ⟨0xFF00, 0x9600, false, .xchg, .admitted⟩,
  ⟨0xFF00, 0x9700, false, .xchg, .admitted⟩,
  ⟨0xFF00, 0x9800, false, .cbw, .admitted⟩,
  ⟨0xFF00, 0x9900, false, .cwd, .admitted⟩,
  ⟨0xFF00, 0x9A00, false, .call, .admitted⟩,
  ⟨0xFF00, 0x9B00, false, .wait, .refused⟩,
  ⟨0xFF00, 0x9C00, false, .pushf, .admitted⟩,
  ⟨0xFF00, 0x9D00, false, .popf, .admitted⟩,
  ⟨0xFF00, 0x9E00, false, .sahf, .admitted⟩,
  ⟨0xFF00, 0x9F00, false, .lahf, .admitted⟩,
  ⟨0xFF00, 0xA000, false, .mov, .admitted⟩,
  ⟨0xFF00, 0xA100, false, .mov, .admitted⟩,
  ⟨0xFF00, 0xA200, false, .mov, .admitted⟩,
  ⟨0xFF00, 0xA300, false, .mov, .admitted⟩,
  ⟨0xFF00, 0xA400, false, .movsb, .refused⟩,
  ⟨0xFF00, 0xA500, false, .movsw, .refused⟩,
  ⟨0xFF00, 0xA600, false, .cmpsb, .refused⟩,
  ⟨0xFF00, 0xA700, false, .cmpsw, .refused⟩,
  ⟨0xFF00, 0xA800, false, .test, .admitted⟩,
  ⟨0xFF00, 0xA900, false, .test, .admitted⟩,
  ⟨0xFF00, 0xAA00, false, .stosb, .refused⟩,
  ⟨0xFF00, 0xAB00, false, .stosw, .refused⟩,
  ⟨0xFF00, 0xAC00, false, .lodsb, .refused⟩,
  ⟨0xFF00, 0xAD00, false, .lodsw, .refused⟩]

/-- Rows 224 to 255. -/
def templateRows7 : List Template := [
  ⟨0xFF00, 0xAE00, false, .scasb, .refused⟩,
  ⟨0xFF00, 0xAF00, false, .scasw, .refused⟩,
  ⟨0xFF00, 0xB000, false, .mov, .admitted⟩,
  ⟨0xFF00, 0xB100, false, .mov, .admitted⟩,
  ⟨0xFF00, 0xB200, false, .mov, .admitted⟩,
  ⟨0xFF00, 0xB300, false, .mov, .admitted⟩,
  ⟨0xFF00, 0xB400, false, .mov, .admitted⟩,
  ⟨0xFF00, 0xB500, false, .mov, .admitted⟩,
  ⟨0xFF00, 0xB600, false, .mov, .admitted⟩,
  ⟨0xFF00, 0xB700, false, .mov, .admitted⟩,
  ⟨0xFF00, 0xB800, false, .mov, .admitted⟩,
  ⟨0xFF00, 0xB900, false, .mov, .admitted⟩,
  ⟨0xFF00, 0xBA00, false, .mov, .admitted⟩,
  ⟨0xFF00, 0xBB00, false, .mov, .admitted⟩,
  ⟨0xFF00, 0xBC00, false, .mov, .admitted⟩,
  ⟨0xFF00, 0xBD00, false, .mov, .admitted⟩,
  ⟨0xFF00, 0xBE00, false, .mov, .admitted⟩,
  ⟨0xFF00, 0xBF00, false, .mov, .admitted⟩,
  ⟨0xFF00, 0xC000, false, .unknown, .unknown⟩,
  ⟨0xFF00, 0xC100, false, .unknown, .unknown⟩,
  ⟨0xFF00, 0xC200, false, .ret, .admitted⟩,
  ⟨0xFF00, 0xC300, false, .ret, .admitted⟩,
  ⟨0xFF00, 0xC400, true, .les, .admitted⟩,
  ⟨0xFFC0, 0xC4C0, false, .unknown, .unknown⟩,
  ⟨0xFF00, 0xC500, true, .lds, .admitted⟩,
  ⟨0xFFC0, 0xC5C0, false, .unknown, .unknown⟩,
  ⟨0xFF38, 0xC600, false, .mov, .admitted⟩,
  ⟨0xFF38, 0xC608, false, .unknown, .unknown⟩,
  ⟨0xFF38, 0xC610, false, .unknown, .unknown⟩,
  ⟨0xFF38, 0xC618, false, .unknown, .unknown⟩,
  ⟨0xFF38, 0xC620, false, .unknown, .unknown⟩,
  ⟨0xFF38, 0xC628, false, .unknown, .unknown⟩]

/-- Rows 256 to 287. -/
def templateRows8 : List Template := [
  ⟨0xFF38, 0xC630, false, .unknown, .unknown⟩,
  ⟨0xFF38, 0xC638, false, .unknown, .unknown⟩,
  ⟨0xFF38, 0xC700, false, .mov, .admitted⟩,
  ⟨0xFF38, 0xC708, false, .unknown, .unknown⟩,
  ⟨0xFF38, 0xC710, false, .unknown, .unknown⟩,
  ⟨0xFF38, 0xC718, false, .unknown, .unknown⟩,
  ⟨0xFF38, 0xC720, false, .unknown, .unknown⟩,
  ⟨0xFF38, 0xC728, false, .unknown, .unknown⟩,
  ⟨0xFF38, 0xC730, false, .unknown, .unknown⟩,
  ⟨0xFF38, 0xC738, false, .unknown, .unknown⟩,
  ⟨0xFF00, 0xC800, false, .unknown, .unknown⟩,
  ⟨0xFF00, 0xC900, false, .unknown, .unknown⟩,
  ⟨0xFF00, 0xCA00, false, .retf, .admitted⟩,
  ⟨0xFF00, 0xCB00, false, .retf, .admitted⟩,
  ⟨0xFF00, 0xCC00, false, .int3, .admitted⟩,
  ⟨0xFF00, 0xCD00, false, .int, .admitted⟩,
  ⟨0xFF00, 0xCE00, false, .into, .admitted⟩,
  ⟨0xFF00, 0xCF00, false, .iret, .admitted⟩,
  ⟨0xFF00, 0xD000, false, .shiftRotate, .refused⟩,
  ⟨0xFF00, 0xD100, false, .shiftRotate, .refused⟩,
  ⟨0xFF00, 0xD200, false, .shiftRotate, .refused⟩,
  ⟨0xFF00, 0xD300, false, .shiftRotate, .refused⟩,
  ⟨0xFF00, 0xD400, false, .aam, .refused⟩,
  ⟨0xFF00, 0xD500, false, .aad, .refused⟩,
  ⟨0xFF00, 0xD600, false, .unknown, .unknown⟩,
  ⟨0xFF00, 0xD700, false, .xlat, .admitted⟩,
  ⟨0xFF00, 0xD800, false, .esc, .refused⟩,
  ⟨0xFF00, 0xD900, false, .esc, .refused⟩,
  ⟨0xFF00, 0xDA00, false, .esc, .refused⟩,
  ⟨0xFF00, 0xDB00, false, .esc, .refused⟩,
  ⟨0xFF00, 0xDC00, false, .esc, .refused⟩,
  ⟨0xFF00, 0xDD00, false, .esc, .refused⟩]

/-- Rows 288 to 319. -/
def templateRows9 : List Template := [
  ⟨0xFF00, 0xDE00, false, .esc, .refused⟩,
  ⟨0xFF00, 0xDF00, false, .esc, .refused⟩,
  ⟨0xFF00, 0xE000, false, .loopne, .admitted⟩,
  ⟨0xFF00, 0xE100, false, .loope, .admitted⟩,
  ⟨0xFF00, 0xE200, false, .loop, .admitted⟩,
  ⟨0xFF00, 0xE300, false, .jcxz, .admitted⟩,
  ⟨0xFF00, 0xE400, false, .inp, .admitted⟩,
  ⟨0xFF00, 0xE500, false, .inp, .admitted⟩,
  ⟨0xFF00, 0xE600, false, .out, .admitted⟩,
  ⟨0xFF00, 0xE700, false, .out, .admitted⟩,
  ⟨0xFF00, 0xE800, false, .call, .admitted⟩,
  ⟨0xFF00, 0xE900, false, .jmp, .admitted⟩,
  ⟨0xFF00, 0xEA00, false, .jmp, .admitted⟩,
  ⟨0xFF00, 0xEB00, false, .jmp, .admitted⟩,
  ⟨0xFF00, 0xEC00, false, .inp, .admitted⟩,
  ⟨0xFF00, 0xED00, false, .inp, .admitted⟩,
  ⟨0xFF00, 0xEE00, false, .out, .admitted⟩,
  ⟨0xFF00, 0xEF00, false, .out, .admitted⟩,
  ⟨0xFF00, 0xF000, false, .lock, .refused⟩,
  ⟨0xFF00, 0xF100, false, .unknown, .unknown⟩,
  ⟨0xFF00, 0xF200, false, .repne, .pfx⟩,
  ⟨0xFF00, 0xF300, false, .rep, .pfx⟩,
  ⟨0xFF00, 0xF400, false, .hlt, .admitted⟩,
  ⟨0xFF00, 0xF500, false, .cmc, .admitted⟩,
  ⟨0xFF38, 0xF600, false, .test, .admitted⟩,
  ⟨0xFF38, 0xF608, false, .unknown, .unknown⟩,
  ⟨0xFF38, 0xF610, false, .lnot, .admitted⟩,
  ⟨0xFF38, 0xF618, false, .neg, .admitted⟩,
  ⟨0xFF38, 0xF620, false, .mul, .refused⟩,
  ⟨0xFF38, 0xF628, false, .imul, .refused⟩,
  ⟨0xFF38, 0xF630, false, .div, .refused⟩,
  ⟨0xFF38, 0xF638, false, .idiv, .refused⟩]

/-- Rows 320 to 351. -/
def templateRows10 : List Template := [
  ⟨0xFF38, 0xF700, false, .test, .admitted⟩,
  ⟨0xFF38, 0xF708, false, .unknown, .unknown⟩,
  ⟨0xFF38, 0xF710, false, .lnot, .admitted⟩,
  ⟨0xFF38, 0xF718, false, .neg, .admitted⟩,
  ⟨0xFF38, 0xF720, false, .mul, .refused⟩,
  ⟨0xFF38, 0xF728, false, .imul, .refused⟩,
  ⟨0xFF38, 0xF730, false, .div, .refused⟩,
  ⟨0xFF38, 0xF738, false, .idiv, .refused⟩,
  ⟨0xFF00, 0xF800, false, .clc, .admitted⟩,
  ⟨0xFF00, 0xF900, false, .stc, .admitted⟩,
  ⟨0xFF00, 0xFA00, false, .cli, .admitted⟩,
  ⟨0xFF00, 0xFB00, false, .sti, .admitted⟩,
  ⟨0xFF00, 0xFC00, false, .cld, .admitted⟩,
  ⟨0xFF00, 0xFD00, false, .std, .admitted⟩,
  ⟨0xFF38, 0xFE00, false, .inc, .admitted⟩,
  ⟨0xFF38, 0xFE08, false, .dec, .admitted⟩,
  ⟨0xFF38, 0xFE10, false, .unknown, .unknown⟩,
  ⟨0xFF38, 0xFE18, false, .unknown, .unknown⟩,
  ⟨0xFF38, 0xFE20, false, .unknown, .unknown⟩,
  ⟨0xFF38, 0xFE28, false, .unknown, .unknown⟩,
  ⟨0xFF38, 0xFE30, false, .unknown, .unknown⟩,
  ⟨0xFF38, 0xFE38, false, .unknown, .unknown⟩,
  ⟨0xFF38, 0xFF00, false, .inc, .admitted⟩,
  ⟨0xFF38, 0xFF08, false, .dec, .admitted⟩,
  ⟨0xFF38, 0xFF10, false, .call, .admitted⟩,
  ⟨0xFF38, 0xFF18, true, .call, .admitted⟩,
  ⟨0xFFF8, 0xFFD8, false, .unknown, .unknown⟩,
  ⟨0xFF38, 0xFF20, false, .jmp, .admitted⟩,
  ⟨0xFF38, 0xFF28, true, .jmp, .admitted⟩,
  ⟨0xFFF8, 0xFFE8, false, .unknown, .unknown⟩,
  ⟨0xFF38, 0xFF30, false, .push, .admitted⟩,
  ⟨0xFF38, 0xFF38, false, .unknown, .unknown⟩]

/-- The template table in its fixed priority order: ascending opcode, then ascending `reg` (30_encoding.md R133). -/
def templates : List Template :=
  templateRows0 ++ templateRows1 ++ templateRows2 ++ templateRows3 ++ templateRows4 ++ templateRows5 ++ templateRows6 ++
    templateRows7 ++ templateRows8 ++ templateRows9 ++ templateRows10

/-- The first template that claims an opcode byte and the byte after it (30_encoding.md R130). -/
def firstTemplate (op m : Byte) : Option Template := templates.find? fun r => r.accepts op m

/-- The table's mnemonic of a decoded instruction. -/
def Instr.mnemonic : Instr → Mnemonic
  | .add _ _ => .add
  | .lor _ _ => .lor
  | .adc _ _ => .adc
  | .sbb _ _ => .sbb
  | .land _ _ => .land
  | .sub _ _ => .sub
  | .lxor _ _ => .lxor
  | .cmp _ _ => .cmp
  | .pushRw _ _ | .pushSr _ _ | .pushRm _ _ => .push
  | .popRw _ _ | .popSr _ _ | .popRm _ _ => .pop
  | .generic _ _ => .unknown
  | .segByte _ _ => .seg
  | .daa _ => .daa
  | .das _ => .das
  | .aaa _ => .aaa
  | .aas _ => .aas
  | .inc _ _ => .inc
  | .dec _ _ => .dec
  | .jo _ _ => .jo
  | .jno _ _ => .jno
  | .jb _ _ => .jb
  | .jnb _ _ => .jnb
  | .jz _ _ => .jz
  | .jnz _ _ => .jnz
  | .jbe _ _ => .jbe
  | .ja _ _ => .ja
  | .js _ _ => .js
  | .jns _ _ => .jns
  | .jp _ _ => .jp
  | .jnp _ _ => .jnp
  | .jl _ _ => .jl
  | .jge _ _ => .jge
  | .jle _ _ => .jle
  | .jg _ _ => .jg
  | .test _ _ => .test
  | .xchgRm _ _ | .xchgAx _ _ => .xchg
  | .movRm _ _ | .movFromSeg _ _ _ | .movToSeg _ _ _ | .movAccMoffs _ _ _ | .movMoffsAcc _ _ _ => .mov
  | .movRbIb _ _ _ | .movRwIw _ _ _ | .movRmImm _ _ => .mov
  | .lea _ _ _ => .lea
  | .nop _ => .nop
  | .cbw _ => .cbw
  | .cwd _ => .cwd
  | .callNear _ _ | .callFar _ _ _ | .callRm _ _ | .callMem _ _ => .call
  | .wait _ => .wait
  | .pushf _ => .pushf
  | .popf _ => .popf
  | .sahf _ => .sahf
  | .lahf _ => .lahf
  | .movsb _ => .movsb
  | .movsw _ => .movsw
  | .cmpsb _ => .cmpsb
  | .cmpsw _ => .cmpsw
  | .stosb _ => .stosb
  | .stosw _ => .stosw
  | .lodsb _ => .lodsb
  | .lodsw _ => .lodsw
  | .scasb _ => .scasb
  | .scasw _ => .scasw
  | .ret _ | .retImm _ _ => .ret
  | .les _ _ _ => .les
  | .lds _ _ _ => .lds
  | .retf _ | .retfImm _ _ => .retf
  | .int3 _ => .int3
  | .int _ _ => .int
  | .into _ => .into
  | .iret _ => .iret
  | .shiftRotate _ _ => .shiftRotate
  | .aam _ => .aam
  | .aad _ => .aad
  | .xlat _ => .xlat
  | .esc _ _ => .esc
  | .loopne _ _ => .loopne
  | .loope _ _ => .loope
  | .loop _ _ => .loop
  | .jcxz _ _ => .jcxz
  | .inImm _ _ _ | .inDx _ _ => .inp
  | .outImm _ _ _ | .outDx _ _ => .out
  | .jmpShort _ _ | .jmpNear _ _ | .jmpFar _ _ _ | .jmpRm _ _ | .jmpMem _ _ => .jmp
  | .lock _ => .lock
  | .repneByte _ => .repne
  | .repByte _ => .rep
  | .hlt _ => .hlt
  | .cmc _ => .cmc
  | .lnot _ _ => .lnot
  | .neg _ _ => .neg
  | .mul _ _ _ _ => .mul
  | .imul _ _ _ _ => .imul
  | .div _ _ _ _ => .div
  | .idiv _ _ _ _ => .idiv
  | .clc _ => .clc
  | .stc _ => .stc
  | .cli _ => .cli
  | .sti _ => .sti
  | .cld _ => .cld
  | .std _ => .std

/-- The class of a decoded instruction's row. -/
def Instr.encodingClass : Instr → EncodingClass
  | .generic _ _ => .unknown
  | .segByte _ _ | .repneByte _ | .repByte _ => .pfx
  | i => if i.isRefused then .refused else .admitted

/-- `kind` (30_encoding.md R140): the row, or GENERIC for an unknown encoding and a fifth prefix byte (R180). -/
def Instr.kind (i : Instr) : Kind :=
  match i.encodingClass with
  | .admitted | .refused => .row i.opcode i.ext
  | .unknown | .pfx => .generic

end Sys2Proof
end

