-- ==== Sys2Proof/Safety.lean ====
section
/-! DEFINITION. The terms claims use: the states a run keeps to (the invariant), what an instruction may change
(its footprint), what a write leaves, and what a safe run is. -/

namespace Sys2Proof.Machine

/-! ### The invariant -/

/-- Between ticks the decoded-instruction queue holds no instruction and has a slot (20_memory.md R117,
10_state.md R46). -/
def DQueue.idle (q : DQueue) : Bool :=
  q.count == 0 && q.slots.all Option.isNone && decide (q.head < q.slots.length)

/-- Between steps the stage is Fetching, or StepWait with an instruction that decode gave, IP past it, and the
prefetch queue the tick began with (10_state.md R48, R45, 48_pipeline.md R457). -/
def State.stageOk (s : State) : Bool :=
  match s.stage with
  | .fetching => true
  | .stepWait d pq0 _ =>
    decide (pq0.length ≤ Config.pqCapacity) && d.instr.wellFormed && !d.instr.isRefused && d.addr == s.startAddr d.instr.len && d.bytes == d.instr.bytes
  | .decoding | .executing => false

/-- What every state of a run satisfies. -/
structure State.Inv (s : State) : Prop where
  /-- memory is in its canonical form -/
  mem : s.mem.wf = true
  /-- the prefetch queue holds at most six bytes (10_state.md R45) -/
  pq : s.pq.length ≤ Config.pqCapacity
  /-- the decoded-instruction queue is empty (20_memory.md R117) -/
  dq : s.dq.idle = true
  /-- the reserved image is 0 at the named flags (10_state.md R43) -/
  params : s.params.legal = true
  /-- the stage is one a step ends in -/
  stage : s.stageOk = true

/-! ### Footprints -/

/-- The nine named flags (10_state.md R40). -/
inductive FlagName where
  | cf | pf | af | zf | sf | tf | ifl | df | of
  deriving DecidableEq, Repr

/-- A flag by name (10_state.md R40). -/
def Flags.get (f : Flags) : FlagName → Bool
  | .cf => f.cf | .pf => f.pf | .af => f.af | .zf => f.zf | .sf => f.sf
  | .tf => f.tf | .ifl => f.ifl | .df => f.df | .of => f.of

/-- The six flags an arithmetic function writes (40_alu.md R239 to R242). -/
def arithFlags : List FlagName := [.cf, .pf, .af, .zf, .sf, .of]

/-- All nine flags. -/
def allFlags : List FlagName := [.cf, .pf, .af, .zf, .sf, .tf, .ifl, .df, .of]

/-- What an instruction may change. The observation log is stated apart. -/
structure Footprint where
  regs : List Reg16 := []
  segs : List SReg := []
  flags : List FlagName := []
  bytes : List Addr := []
  ip : Bool := false
  halted : Bool := false
  undefSeen : Bool := false
  draws : Bool := false

/-- Everything outside the footprint reads in `t` as it did in `s`. -/
structure Frame (w : Footprint) (s t : State) : Prop where
  regs : ∀ r, r ∉ w.regs → t.reg16 r = s.reg16 r
  segs : ∀ g, g ∉ w.segs → t.sreg g = s.sreg g
  flags : ∀ n, n ∉ w.flags → t.flags.get n = s.flags.get n
  bytes : ∀ a, a ∉ w.bytes → t.read8 a = s.read8 a
  ip : w.ip = false → t.ip = s.ip
  halted : w.halted = false → t.halted = s.halted
  undefSeen : w.undefSeen = false → t.undefSeen = s.undefSeen
  draws : w.draws = false → t.draws = s.draws
  pq : t.pq = s.pq
  dq : t.dq = s.dq
  stepMode : t.stepMode = s.stepMode
  stage : t.stage = s.stage
  nmiLatched : t.nmiLatched = s.nmiLatched
  stopRequested : t.stopRequested = s.stopRequested
  params : t.params = s.params
  intr : t.intr = s.intr

/-! ### What a write leaves -/

/-- A byte place holds `v` after the write: a register exactly, with the other byte registers unchanged
(10_state.md R32); a memory byte unless it is in the read-only region (20_memory.md R85, R86). -/
def Wrote8 (s t : State) (l : Loc Reg8) (v : Byte) : Prop :=
  match l with
  | .reg r => t.reg8 r = v ∧ ∀ j, j ≠ r → t.reg8 j = s.reg8 j
  | .mem a => t.read8 a = if inRom a then s.read8 a else v

/-- A word place holds `v` after the write, each memory byte unless it is in the read-only region. -/
def Wrote16 (s t : State) (l : Loc Reg16) (v : Word) : Prop :=
  match l with
  | .reg r => t.reg16 r = v
  | .mem a =>
    (t.read8 a = if inRom a then s.read8 a else loByte v) ∧
    (t.read8 (a + 1) = if inRom (a + 1) then s.read8 (a + 1) else hiByte v)

/-- The 16-bit register a byte place lies in. -/
def Loc.regs8 : Loc Reg8 → List Reg16
  | .reg r => [Reg8.parent r]
  | .mem _ => []

/-- The 16-bit register a word place is. -/
def Loc.regs16 : Loc Reg16 → List Reg16
  | .reg r => [r]
  | .mem _ => []

/-- The byte stored to. -/
def Loc.bytes8 : Loc Reg8 → List Addr
  | .reg _ => []
  | .mem a => [a]

/-- The two bytes stored to, the second at the next linear address (20_memory.md R84). -/
def Loc.bytes16 : Loc Reg16 → List Addr
  | .reg _ => []
  | .mem a => [a, a + 1]

/-- The event of a byte write (10_state.md R60). -/
def Loc.events8 (l : Loc Reg8) (v : Byte) : List Event :=
  match l with
  | .reg _ => []
  | .mem a => [.memWrite a (.b v) (inRom a)]

/-- The event of a word write (20_memory.md R85). -/
def Loc.events16 (l : Loc Reg16) (v : Word) : List Event :=
  match l with
  | .reg _ => []
  | .mem a => [.memWrite a (.w v) (inRom a || inRom (a + 1))]

/-- The address of the word that the next push stores (20_memory.md R94). -/
def State.pushAddr (s : State) : Addr := linear (s.sreg .ss) (s.reg16 .sp - 2)

/-! ### Safe runs -/

/-- A step that answers a next state. -/
def State.goesOn (s : State) : Bool :=
  match step s with
  | .next _ => true
  | .fault _ => false
  | .refused _ => false

/-- A run of `n` steps with no fault and no refusal (60_exceptions.md R483: a claim about a run holds only for runs
with no refusal). -/
def State.safeFor : Nat → State → Bool
  | 0, _ => true
  | n + 1, s =>
    match step s with
    | .next t => State.safeFor n t
    | .fault _ => false
    | .refused _ => false

end Sys2Proof.Machine
end

