-- ==== Sys2Proof/Certificates/Slice0/Obligations.lean ====
section
/-! DEFINITION. The statements about the model. The first part is their vocabulary: what each flag must be in terms of
numbers, what each kind of instruction leaves, and the premises of a tick. -/

namespace Sys2Proof.Claims

open Sys2Proof.Machine

/-! ### Completion -/

/-- The instruction answers a next state, and `P` holds of it. -/
def Completes (i : Instr) (s : State) (P : State → Prop) : Prop := ∃ t, exec i s = .next t ∧ P t

/-- The bytes of an instruction are its prefixes, then these. -/
def EncodedAs (i : Instr) (p : List Pfx) (body : List Byte) : Prop := i.encode = p.map Pfx.byte ++ body

/-! ### Flags in terms of numbers -/

/-- An even number of ones among the low eight bits (40_alu.md R236). -/
def evenOnes {n : Nat} (r : BitVec n) : Bool := decide (((List.range 8).filter fun k => r.getLsbD k).length % 2 = 0)

/-- SF, ZF and PF of a result (40_alu.md R235, R236). -/
structure ResultFlags {n : Nat} (f : Flags) (r : BitVec n) : Prop where
  sf : f.sf = decide (2 ^ (n - 1) ≤ r.toNat)
  zf : f.zf = decide (r.toNat = 0)
  pf : f.pf = evenOnes r

/-- A number is outside the signed range of `n` bits. -/
def outsideSigned (n : Nat) (x : Int) : Bool := decide (x < -2 ^ (n - 1) ∨ 2 ^ (n - 1) ≤ x)

/-- AF and OF of a sum a + b + c (40_alu.md R232, R237). -/
structure SumCarries {n : Nat} (f : Flags) (a b : BitVec n) (c : Bool) : Prop where
  af : f.af = decide (16 ≤ a.toNat % 16 + b.toNat % 16 + c.toNat)
  of : f.of = outsideSigned n (a.toInt + b.toInt + c.toNat)

/-- AF and OF of a difference a - b - c (40_alu.md R232, R237). -/
structure DiffBorrows {n : Nat} (f : Flags) (a b : BitVec n) (c : Bool) : Prop where
  af : f.af = decide (a.toNat % 16 < b.toNat % 16 + c.toNat)
  of : f.of = outsideSigned n (a.toInt - b.toInt - c.toNat)

/-- The six flags of a sum with result `r` (40_alu.md R233). -/
structure SumFlags {n : Nat} (f : Flags) (a b : BitVec n) (c : Bool) (r : BitVec n) : Prop where
  cf : f.cf = decide (2 ^ n ≤ a.toNat + b.toNat + c.toNat)
  carries : SumCarries f a b c
  result : ResultFlags f r

/-- The six flags of a difference with result `r` (40_alu.md R234). -/
structure DiffFlags {n : Nat} (f : Flags) (a b : BitVec n) (c : Bool) (r : BitVec n) : Prop where
  cf : f.cf = decide (a.toNat < b.toNat + c.toNat)
  borrows : DiffBorrows f a b c
  result : ResultFlags f r

/-- The flags of a logical operation: CF and OF clear, AF the free value of this draw, the draw spent
(40_alu.md R238). -/
structure LogicFlags {n : Nat} (s t : State) (r : BitVec n) : Prop where
  cf : t.flags.cf = false
  of : t.flags.of = false
  af : t.flags.af = Config.afDraw s.draws
  draws : t.draws = s.draws + 1
  result : ResultFlags t.flags r

/-! ### What an instruction leaves -/

/-- The byte `v` was written to place `d`, the named flags (and the draw counter, if `dr`) may have changed, nothing
else. -/
structure Put8 (s t : State) (d : Loc Reg8) (v : Byte) (flags : List FlagName) (dr : Bool) : Prop where
  value : Wrote8 s t d v
  log : t.log = s.log ++ d.events8 v
  frame : Frame { regs := d.regs8, bytes := d.bytes8, flags := flags, draws := dr } s t

/-- The word `v` was written to place `d`, the named flags (and the draw counter, if `dr`) may have changed, nothing
else. -/
structure Put16 (s t : State) (d : Loc Reg16) (v : Word) (flags : List FlagName) (dr : Bool) : Prop where
  value : Wrote16 s t d v
  log : t.log = s.log ++ d.events16 v
  frame : Frame { regs := d.regs16, bytes := d.bytes16, flags := flags, draws := dr } s t

/-- Only these flags (and the draw counter, if `dr`) may have changed. -/
structure FlagsOnly (s t : State) (flags : List FlagName) (dr : Bool) : Prop where
  log : t.log = s.log
  frame : Frame { flags := flags, draws := dr } s t

/-- `P` holds of each operand form of ADD, OR, ADC, SBB, AND, SUB, XOR and CMP with its destination, `a = Read(dst)` and
`b = Read(src)` (41_arith_logic.md R271): E is the destination of the forms with d = 0 and of the immediate forms, G of the
forms with d = 1, and the immediate of 0x83 is sign-extended (30_encoding.md R167). -/
structure AluForms (s : State) (p : List Pfx) (P : AluForm → Pair → Prop) : Prop where
  ebGb : ∀ e g, P (.ebGb e g) (.b (s.loc p e) (s.readEb p e) (s.reg8 g))
  evGv : ∀ e g, P (.evGv e g) (.w (s.loc p e) (s.readEv p e) (s.reg16 g))
  gbEb : ∀ g e, P (.gbEb g e) (.b (.reg g) (s.reg8 g) (s.readEb p e))
  gvEv : ∀ g e, P (.gvEv g e) (.w (.reg g) (s.reg16 g) (s.readEv p e))
  alIb : ∀ i, P (.alIb i) (.b (.reg .al) (s.reg8 .al) i)
  axIw : ∀ i, P (.axIw i) (.w (.reg .ax) (s.reg16 .ax) i)
  ebIb : ∀ e i, P (.ebIb e i) (.b (s.loc p e) (s.readEb p e) i)
  ebIbAlias : ∀ e i, P (.ebIbAlias e i) (.b (s.loc p e) (s.readEb p e) i)
  evIw : ∀ e i, P (.evIw e i) (.w (s.loc p e) (s.readEv p e) i)
  evIbs : ∀ e i, ∀ x : Word, x.toInt = i.toInt → P (.evIbs e i) (.w (s.loc p e) (s.readEv p e) x)

/-- `P` holds of each operand form of TEST with its two operands (41_arith_logic.md R280). -/
structure TestForms (s : State) (p : List Pfx) (P : TestForm → Pair → Prop) : Prop where
  ebGb : ∀ e g, P (.ebGb e g) (.b (s.loc p e) (s.readEb p e) (s.reg8 g))
  evGv : ∀ e g, P (.evGv e g) (.w (s.loc p e) (s.readEv p e) (s.reg16 g))
  alIb : ∀ i, P (.alIb i) (.b (.reg .al) (s.reg8 .al) i)
  axIw : ∀ i, P (.axIw i) (.w (.reg .ax) (s.reg16 .ax) i)
  ebIb : ∀ e i, P (.ebIb e i) (.b (s.loc p e) (s.readEb p e) i)
  evIw : ∀ e i, P (.evIw e i) (.w (s.loc p e) (s.readEv p e) i)

/-- `P` holds of each operand form of INC and DEC with its operand (41_arith_logic.md R281, R282). -/
structure IncForms (s : State) (p : List Pfx) (P : IncForm → Single → Prop) : Prop where
  rw : ∀ r, P (.rw r) (.w (.reg r) (s.reg16 r))
  eb : ∀ e, P (.eb e) (.b (s.loc p e) (s.readEb p e))
  ev : ∀ e, P (.ev e) (.w (s.loc p e) (s.readEv p e))

/-- `P` holds of each operand form of NEG and NOT with its operand (41_arith_logic.md R283, R284). -/
structure UnaryForms (s : State) (p : List Pfx) (P : UnaryForm → Single → Prop) : Prop where
  eb : ∀ e, P (.eb e) (.b (s.loc p e) (s.readEb p e))
  ev : ∀ e, P (.ev e) (.w (s.loc p e) (s.readEv p e))

/-- The sum a + b + c of a pair's operands is in its destination, with its flags. -/
def SumWritten (q : Pair) (c : Bool) (s t : State) : Prop :=
  match q with
  | .b d a b => ∃ r : Byte, r.toNat = (a.toNat + b.toNat + c.toNat) % 2 ^ 8 ∧
      SumFlags t.flags a b c r ∧ Put8 s t d r arithFlags false
  | .w d a b => ∃ r : Word, r.toNat = (a.toNat + b.toNat + c.toNat) % 2 ^ 16 ∧
      SumFlags t.flags a b c r ∧ Put16 s t d r arithFlags false

/-- The difference a - b - c of a pair's operands is in its destination, with its flags. -/
def DiffWritten (q : Pair) (c : Bool) (s t : State) : Prop :=
  match q with
  | .b d a b => ∃ r : Byte, (r.toNat : Int) = ((a.toNat : Int) - b.toNat - c.toNat) % 2 ^ 8 ∧
      DiffFlags t.flags a b c r ∧ Put8 s t d r arithFlags false
  | .w d a b => ∃ r : Word, (r.toNat : Int) = ((a.toNat : Int) - b.toNat - c.toNat) % 2 ^ 16 ∧
      DiffFlags t.flags a b c r ∧ Put16 s t d r arithFlags false

/-- The flags are those of the difference a - b, which is written nowhere. -/
def DiffCompared (q : Pair) (s t : State) : Prop :=
  FlagsOnly s t arithFlags false ∧
  match q with
  | .b _ a b => ∃ r : Byte, (r.toNat : Int) = ((a.toNat : Int) - b.toNat) % 2 ^ 8 ∧ DiffFlags t.flags a b false r
  | .w _ a b => ∃ r : Word, (r.toNat : Int) = ((a.toNat : Int) - b.toNat) % 2 ^ 16 ∧ DiffFlags t.flags a b false r

/-- Every bit of `r` is `g` of the bits of `a` and `b`. -/
def BitByBit {n : Nat} (g : Bool → Bool → Bool) (a b r : BitVec n) : Prop :=
  ∀ k, k < n → r.getLsbD k = g (a.getLsbD k) (b.getLsbD k)

/-- The bitwise combination of a pair's operands is in its destination, with the flags of a logical operation. -/
def LogicWritten (g : Bool → Bool → Bool) (q : Pair) (s t : State) : Prop :=
  match q with
  | .b d a b => ∃ r : Byte, BitByBit g a b r ∧ LogicFlags s t r ∧ Put8 s t d r arithFlags true
  | .w d a b => ∃ r : Word, BitByBit g a b r ∧ LogicFlags s t r ∧ Put16 s t d r arithFlags true

/-- The flags are those of the bitwise and, which is written nowhere. -/
def AndTested (q : Pair) (s t : State) : Prop :=
  FlagsOnly s t arithFlags true ∧
  match q with
  | .b _ a b => ∃ r : Byte, BitByBit (· && ·) a b r ∧ LogicFlags s t r
  | .w _ a b => ∃ r : Word, BitByBit (· && ·) a b r ∧ LogicFlags s t r

/-- The flags INC and DEC write (41_arith_logic.md R281, R282). -/
def incFlags : List FlagName := [.pf, .af, .zf, .sf, .of]

/-- The operand plus one is in its place; CF is not in the footprint (40_alu.md R243). -/
def Incremented (q : Single) (s t : State) : Prop :=
  match q with
  | .b d a => ∃ r : Byte, r.toNat = (a.toNat + 1) % 2 ^ 8 ∧
      SumCarries t.flags a 1 false ∧ ResultFlags t.flags r ∧ Put8 s t d r incFlags false
  | .w d a => ∃ r : Word, r.toNat = (a.toNat + 1) % 2 ^ 16 ∧
      SumCarries t.flags a 1 false ∧ ResultFlags t.flags r ∧ Put16 s t d r incFlags false

/-- The operand minus one is in its place; CF is not in the footprint (40_alu.md R244). -/
def Decremented (q : Single) (s t : State) : Prop :=
  match q with
  | .b d a => ∃ r : Byte, (r.toNat : Int) = ((a.toNat : Int) - 1) % 2 ^ 8 ∧
      DiffBorrows t.flags a 1 false ∧ ResultFlags t.flags r ∧ Put8 s t d r incFlags false
  | .w d a => ∃ r : Word, (r.toNat : Int) = ((a.toNat : Int) - 1) % 2 ^ 16 ∧
      DiffBorrows t.flags a 1 false ∧ ResultFlags t.flags r ∧ Put16 s t d r incFlags false

/-- The two's-complement negation is in its place: CF says the operand was not zero, OF that it was the most negative
number (40_alu.md R250). -/
def Negated (q : Single) (s t : State) : Prop :=
  match q with
  | .b d a => ∃ r : Byte, (r.toNat : Int) = (-(a.toNat : Int)) % 2 ^ 8 ∧
      t.flags.cf = decide (a.toNat ≠ 0) ∧ t.flags.of = decide (a.toNat = 0x80) ∧
      t.flags.af = decide (a.toNat % 16 ≠ 0) ∧ ResultFlags t.flags r ∧ Put8 s t d r arithFlags false
  | .w d a => ∃ r : Word, (r.toNat : Int) = (-(a.toNat : Int)) % 2 ^ 16 ∧
      t.flags.cf = decide (a.toNat ≠ 0) ∧ t.flags.of = decide (a.toNat = 0x8000) ∧
      t.flags.af = decide (a.toNat % 16 ≠ 0) ∧ ResultFlags t.flags r ∧ Put16 s t d r arithFlags false

/-- The complement is in its place, as mask(N) - a; no flag changes (41_arith_logic.md R284). -/
def Complemented (q : Single) (s t : State) : Prop :=
  match q with
  | .b d a => ∃ r : Byte, r.toNat = 0xFF - a.toNat ∧ Put8 s t d r [] false
  | .w d a => ∃ r : Word, r.toNat = 0xFFFF - a.toNat ∧ Put16 s t d r [] false

/-- The word `v` was pushed: SP is two lower and the word stands there, unless dropped (20_memory.md R94). -/
structure Pushed (s t : State) (v : Word) (segs : List SReg) (ip : Bool) : Prop where
  sp : t.reg16 .sp = s.reg16 .sp - 2
  word : Wrote16 s t (.mem s.pushAddr) v
  log : t.log = s.log ++ (Loc.mem s.pushAddr).events16 v
  frame : Frame { regs := [.sp], bytes := [s.pushAddr, s.pushAddr + 1], segs := segs, ip := ip } s t

/-- Nothing was stored and nothing recorded; only the footprint may have changed. -/
structure StoresNothing (s t : State) (w : Footprint) : Prop where
  log : t.log = s.log
  bytes : w.bytes = []
  frame : Frame w s t

/-- The address two words below SP. -/
def pushAddr2 (s : State) : Addr := linear (s.sreg .ss) (s.reg16 .sp - 4)

/-- The address three words below SP. -/
def pushAddr3 (s : State) : Addr := linear (s.sreg .ss) (s.reg16 .sp - 6)

/-- Two words were pushed, CS then IP (43_control_transfer.md R383). -/
structure PushedFar (s t : State) : Prop where
  sp : t.reg16 .sp = s.reg16 .sp - 4
  first : Wrote16 s t (.mem s.pushAddr) (s.sreg .cs)
  second : Wrote16 s t (.mem (pushAddr2 s)) s.ip
  log : t.log = s.log ++ ((Loc.mem s.pushAddr).events16 (s.sreg .cs) ++ (Loc.mem (pushAddr2 s)).events16 s.ip)
  frame : Frame
    { regs := [.sp], segs := [.cs], ip := true
      bytes := [s.pushAddr, s.pushAddr + 1, pushAddr2 s, pushAddr2 s + 1] } s t

/-- The address of the vector's offset word: 4n in segment 0 (60_exceptions.md R487). -/
def vectorAddr (n : Byte) : Addr := BitVec.ofNat 20 (4 * n.toNat)

/-- Interrupt entry (60_exceptions.md R490). -/
structure Entered (s t : State) (n : Byte) (source : IntSource) : Prop where
  sp : t.reg16 .sp = s.reg16 .sp - 6
  flagsWord : Wrote16 s t (.mem s.pushAddr) (s.flags.image s.params.flagsReserved)
  csWord : Wrote16 s t (.mem (pushAddr2 s)) (s.sreg .cs)
  ipWord : Wrote16 s t (.mem (pushAddr3 s)) s.ip
  ifl : t.flags.ifl = false
  tf : t.flags.tf = false
  halted : t.halted = false
  ip : t.ip = t.read16 (vectorAddr n)
  cs : t.sreg .cs = t.read16 (vectorAddr n + 2)
  log : t.log = s.log ++ ((Loc.mem s.pushAddr).events16 (s.flags.image s.params.flagsReserved) ++
    (Loc.mem (pushAddr2 s)).events16 (s.sreg .cs) ++ (Loc.mem (pushAddr3 s)).events16 s.ip ++
    [.intTaken n source])
  frame : Frame
    { regs := [.sp], segs := [.cs], flags := [.ifl, .tf], ip := true, halted := true
      bytes := [s.pushAddr, s.pushAddr + 1, pushAddr2 s, pushAddr2 s + 1, pushAddr3 s, pushAddr3 s + 1] } s t

/-- The word `k` words up from the stack pointer (20_memory.md R95). -/
def stackWord (s : State) (k : Nat) : Word := s.read16 (linear (s.sreg .ss) (s.reg16 .sp + BitVec.ofNat 16 (2 * k)))

/-! ### Premises of a tick -/

/-- A tick that starts here reaches the fetch (48_pipeline.md R450). -/
structure ReachesFetch (s : State) : Prop where
  notWaiting : s.isWaiting = false
  notStopped : s.stopRequested = false
  noNmi : s.nmiLatched = false
  noRequest : s.flags.ifl = false ∨ s.intr = none
  notHalted : s.halted = false
  noTrap : s.flags.tf = false ∨ s.params.tfMode ≠ .refuse

/-- The six bytes at CS:IP, offsets modulo 2^16 (48_pipeline.md R453). -/
def fetched (s : State) : List Byte :=
  [0, 1, 2, 3, 4, 5].map fun k => s.read8 (linear (s.sreg .cs) (s.ip + BitVec.ofNat 16 k))

/-- The state after fetch, decode of `i`, the pass through DQ and the IP advance, at stage `g` (48_pipeline.md R453 to
R456). -/
def advanced (s : State) (i : Instr) (g : Stage) : State :=
  { s with
    pq := fetched s
    dq := { s.dq with head := (s.dq.head + 1) % s.dq.slots.length }
    ip := s.ip + BitVec.ofNat 16 i.len
    stage := g }

/-- The end of a tick that executed: the trap of TF_MODE = int1 if TF was set before, then Fetching (48_pipeline.md
R450). -/
def tickEnd (tf0 : Bool) (r : Host.Outcome State Fault Refusal) : Host.Outcome State Fault Refusal :=
  match r with
  | .next t =>
    .next ((if tf0 = true ∧ t.params.tfMode = .int1 then t.interrupt 1 .trap else t).withStage .fetching)
  | .fault e => .fault e
  | .refused e => .refused e

/-- The state `k` steps from `s`, each of them answering a next state. -/
def stepsFrom : Nat → State → Option State
  | 0, s => some s
  | k + 1, s =>
    match step s with
    | .next t => stepsFrom k t
    | .fault _ | .refused _ => none

/-- A run returns at `u` with result `r` and leaves `t`: Stopped with `u` itself, or a fault or a refusal with the state
that it leaves (48_pipeline.md R460, R454). -/
structure ReturnsAt (u : State) (r : TickResult) (t : State) : Prop where
  result : tickResult u = r
  left : (r = .stopped ∧ t = u) ∨ (((∃ e, r = .fault e) ∨ ∃ e, r = .refused e) ∧ t = u.stopState)

/-- A run goes on past `u`. -/
def GoesOn (u : State) : Prop := ∀ r t, ¬ReturnsAt u r t

/-- From `s`, with these acts of the host before each step (48_pipeline.md R470), the run goes on and comes to `v`. -/
inductive HostedTo : List (List HostAct) → State → State → Prop where
  | start (s : State) : HostedTo [] s s
  | step {acts rest s u t v} (host : s.hostActs acts = some u) (on : GoesOn u) (next : step u = .next t)
      (more : HostedTo rest t v) : HostedTo (acts :: rest) s v

/-! ### Tables -/

/-- The sixteen conditional jumps: constructor, opcode, condition (43_control_transfer.md R371). -/
def jccTable : List ((List Pfx → Byte → Instr) × Byte × (Flags → Prop)) :=
  [(.jo, 0x70, fun f => f.of = true), (.jno, 0x71, fun f => f.of = false),
   (.jb, 0x72, fun f => f.cf = true), (.jnb, 0x73, fun f => f.cf = false),
   (.jz, 0x74, fun f => f.zf = true), (.jnz, 0x75, fun f => f.zf = false),
   (.jbe, 0x76, fun f => f.cf = true ∨ f.zf = true), (.ja, 0x77, fun f => f.cf = false ∧ f.zf = false),
   (.js, 0x78, fun f => f.sf = true), (.jns, 0x79, fun f => f.sf = false),
   (.jp, 0x7A, fun f => f.pf = true), (.jnp, 0x7B, fun f => f.pf = false),
   (.jl, 0x7C, fun f => f.sf ≠ f.of), (.jge, 0x7D, fun f => f.sf = f.of),
   (.jle, 0x7E, fun f => f.zf = true ∨ f.sf ≠ f.of), (.jg, 0x7F, fun f => f.zf = false ∧ f.sf = f.of)]

/-- `x` is the offset `start` plus the signed displacement, modulo 2^16 (43_control_transfer.md R370). -/
def RelativeTo (start : Word) (disp : Int) (x : Word) : Prop := (x.toNat : Int) = (start.toNat + disp) % 2 ^ 16

/-- Only IP may have changed. -/
def IpOnly (s t : State) : Prop := StoresNothing s t { ip := true }

/-- The named flag is `v`, and nothing else changed. -/
def FlagSet (s t : State) (n : FlagName) (v : Bool) : Prop := t.flags.get n = v ∧ StoresNothing s t { flags := [n] }

/-- The flags an instruction may write (10_state.md R41 and the instruction rules). -/
def flagsWritten : Instr → List FlagName
  | .add _ _ | .adc _ _ | .sub _ _ | .sbb _ _ | .cmp _ _ | .neg _ _ => arithFlags
  | .lor _ _ | .land _ _ | .lxor _ _ | .test _ _ => arithFlags
  | .inc _ _ | .dec _ _ => incFlags
  | .popf _ | .iret _ => allFlags
  | .sahf _ => [.sf, .zf, .af, .pf, .cf]
  | .clc _ | .stc _ | .cmc _ => [.cf]
  | .cli _ | .sti _ => [.ifl]
  | .cld _ | .std _ => [.df]
  | .int _ _ | .int3 _ | .into _ => [.ifl, .tf]
  | _ => []

/-- The segment registers an instruction may write (10_state.md R38 and, for LDS and LES, 42_data_transfer.md R333 and
R334; log entry 23). -/
def segmentsWritten : Instr → List SReg
  | .movToSeg _ g _ | .popSr _ g => [g]
  | .lds _ _ _ => [.ds]
  | .les _ _ _ => [.es]
  | .jmpFar _ _ _ | .jmpMem _ _ | .callFar _ _ _ | .callMem _ _ => [.cs]
  | .retf _ | .retfImm _ _ | .int _ _ | .int3 _ | .into _ | .iret _ => [.cs]
  | _ => []

/-- The instructions that store to memory or to the stack (20_memory.md R89). -/
def mayStore : Instr → Bool
  | .add _ _ | .lor _ _ | .adc _ _ | .sbb _ _ | .land _ _ | .sub _ _ | .lxor _ _ => true
  | .inc _ _ | .dec _ _ | .neg _ _ | .lnot _ _ => true
  | .movRm _ _ | .movFromSeg _ _ _ | .movMoffsAcc _ _ _ | .movRmImm _ _ | .xchgRm _ _ => true
  | .pushRw _ _ | .pushSr _ _ | .pushRm _ _ | .popRm _ _ | .pushf _ => true
  | .callNear _ _ | .callFar _ _ _ | .callRm _ _ | .callMem _ _ => true
  | .int _ _ | .int3 _ | .into _ => true
  | _ => false

end Sys2Proof.Claims

section Statements

open Sys2Proof Sys2Proof.Machine Sys2Proof.Claims

/-! ### Addresses, memory, registers, flags -/

/-- 20_memory.md R80, R84: the linear address is segment times 16 plus offset, modulo 2^20; a word read takes its low byte
at the address and its high byte at the next linear address, modulo 2^20. -/
def Obligations.LinearAddressesAndLittleEndianWordReads : Prop :=
  (∀ seg off : Word, (linear seg off).toNat = (seg.toNat * 16 + off.toNat) % 2 ^ 20) ∧
  (∀ (s : State) (a a' : Addr), a'.toNat = (a.toNat + 1) % 2 ^ 20 →
    (s.read16 a).toNat = 256 * (s.read8 a').toNat + (s.read8 a).toNat)

/-- 20_memory.md R85: a write stores each byte below 0xF6000, drops each byte at or above it, and records one event. -/
def Obligations.MemoryWriteStoresBelowRomAndDropsAbove : Prop :=
  ∀ (s : State) (a a' : Addr), s.mem.wf = true → a'.toNat = (a.toNat + 1) % 2 ^ 20 →
    (∀ v : Byte,
      (∀ b, (s.write8 a v).read8 b = if b = a ∧ a.toNat < 0xF6000 then v else s.read8 b) ∧
      (s.write8 a v).log = s.log ++ [.memWrite a (.b v) (decide (0xF6000 ≤ a.toNat))]) ∧
    (∀ v : Word,
      (∀ b, (s.write16 a v).read8 b =
        if b = a ∧ a.toNat < 0xF6000 then v.setWidth 8
        else if b = a' ∧ a'.toNat < 0xF6000 then (v >>> 8).setWidth 8 else s.read8 b) ∧
      (s.write16 a v).log =
        s.log ++ [.memWrite a (.w v) (decide (0xF6000 ≤ a.toNat ∨ 0xF6000 ≤ a'.toNat))])

/-- 10_state.md R33: the byte register of index j is the low byte of R16[j] for j below 4 and the high byte of R16[j-4]
otherwise; a byte write replaces that half and leaves the other half and every other register. -/
def Obligations.ByteRegistersAreHalvesOfWordRegisters : Prop :=
  ∀ (s : State) (j i : Oct) (v : Byte),
    (j.toNat < 4 → i = j →
      (s.reg8 (Reg8.ofOct j)).toNat = (s.reg16 (Reg16.ofOct i)).toNat % 256 ∧
      ((s.setReg8 (Reg8.ofOct j) v).reg16 (Reg16.ofOct i)).toNat =
        256 * ((s.reg16 (Reg16.ofOct i)).toNat / 256) + v.toNat) ∧
    (4 ≤ j.toNat → i.toNat + 4 = j.toNat →
      (s.reg8 (Reg8.ofOct j)).toNat = (s.reg16 (Reg16.ofOct i)).toNat / 256 ∧
      ((s.setReg8 (Reg8.ofOct j) v).reg16 (Reg16.ofOct i)).toNat =
        256 * v.toNat + (s.reg16 (Reg16.ofOct i)).toNat % 256) ∧
    (i.toNat ≠ j.toNat % 4 →
      (s.setReg8 (Reg8.ofOct j) v).reg16 (Reg16.ofOct i) = s.reg16 (Reg16.ofOct i))

/-- 10_state.md R42: the saved image holds the nine flags at their positions and the reserved image elsewhere; the restore
reads the nine positions and ignores the rest. -/
def Obligations.FlagsImageSavesAndRestoresNineFlags : Prop :=
  (∀ (f : Flags) (p : Params), p.legal = true →
    (∀ k, (f.image p.flagsReserved).getLsbD k =
      if k = 0 then f.cf else if k = 2 then f.pf else if k = 4 then f.af else if k = 6 then f.zf
      else if k = 7 then f.sf else if k = 8 then f.tf else if k = 9 then f.ifl else if k = 10 then f.df
      else if k = 11 then f.of else p.flagsReserved.getLsbD k) ∧
    Flags.restore (f.image p.flagsReserved) = f) ∧
  (∀ v w : Word, (∀ k, k ∉ [1, 3, 5, 12, 13, 14, 15] → v.getLsbD k = w.getLsbD k) →
    Flags.restore v = Flags.restore w) ∧
  (∀ v : Word, Flags.restore v =
    { cf := v.getLsbD 0, pf := v.getLsbD 2, af := v.getLsbD 4, zf := v.getLsbD 6, sf := v.getLsbD 7
      tf := v.getLsbD 8, ifl := v.getLsbD 9, df := v.getLsbD 10, of := v.getLsbD 11 })

/-- 30_encoding.md R162: the effective address by base and displacement, modulo 2^16, and its default segment. -/
def Obligations.EffectiveAddressByRmAndMod : Prop :=
  ∀ (s : State) (b : Base) (d8 : Byte) (d16 a : Word),
    let base : Nat := match b with
      | .bxsi => s.regs.bx.toNat + s.regs.si.toNat
      | .bxdi => s.regs.bx.toNat + s.regs.di.toNat
      | .bpsi => s.regs.bp.toNat + s.regs.si.toNat
      | .bpdi => s.regs.bp.toNat + s.regs.di.toNat
      | .si => s.regs.si.toNat
      | .di => s.regs.di.toNat
      | .bp => s.regs.bp.toNat
      | .bx => s.regs.bx.toNat
    let seg : SReg := if b = .bpsi ∨ b = .bpdi ∨ b = .bp then .ss else .ds
    (s.ea (.noDisp b)).toNat = base % 2 ^ 16 ∧
    (s.ea (.direct a)).toNat = a.toNat ∧
    ((s.ea (.disp8 b d8)).toNat : Int) = ((base : Int) + d8.toInt) % 2 ^ 16 ∧
    (s.ea (.disp16 b d16)).toNat = (base + d16.toNat) % 2 ^ 16 ∧
    defaultSegment (.noDisp b) = seg ∧ defaultSegment (.disp8 b d8) = seg ∧
    defaultSegment (.disp16 b d16) = seg ∧ defaultSegment (.direct a) = .ds

/-- 30_encoding.md R153, R154, R163: the last segment override of the chain names the segment of a memory operand,
whatever repeat prefixes stand in it; with none, the default segment does. -/
def Obligations.LastSegmentOverrideIsInForce : Prop :=
  ∀ (s : State) (p q : List Pfx) (m : MemRef), (∀ g, Pfx.seg g ∉ q) →
    (∀ g, s.memAddr (p ++ .seg g :: q) m = linear (s.sreg g) (s.ea m)) ∧
    s.memAddr q m = linear (s.sreg (defaultSegment m)) (s.ea m)

/-- 20_memory.md R94, R95: a push lowers SP by two and stores the word at SS:SP; a pop reads the word at SS:SP and raises
SP by two. -/
def Obligations.PushStoresAndPopReadsAtStackPointer : Prop :=
  (∀ (s : State) (v : Word), s.mem.wf = true → Pushed s (s.push16 v) v [] false) ∧
  (∀ s : State, s.top16 = s.read16 (linear (s.sreg .ss) (s.reg16 .sp)) ∧
    (s.drop16.reg16 .sp).toNat = ((s.reg16 .sp).toNat + 2) % 2 ^ 16 ∧ StoresNothing s s.drop16 { regs := [.sp] })

/-! ### The two queues -/

/-- 20_memory.md R110 to R112: reset empties the prefetch queue, fill appends unless six bytes are held, peek reads by
index unless past the end. -/
def Obligations.PrefetchQueueResetFillAndPeek : Prop :=
  (∀ s : State, s.pqReset = { s with pq := [] }) ∧
  (∀ (addr : Addr) (q : List Byte) (b : Byte),
    (q.length = 6 → pqFill addr q b = .error (.pqOverflow addr)) ∧
    (q.length ≠ 6 → pqFill addr q b = .ok (q ++ [b]))) ∧
  (∀ (addr : Addr) (q : List Byte) (k : Nat),
    (q.length ≤ k → pqPeek addr q k = .error (.pqUnderflow addr)) ∧
    (∀ h : k < q.length, pqPeek addr q k = .ok q[k]))

/-- 20_memory.md R113: the fetch fills the queue to six bytes from the offsets after those it holds, and moves nothing
else. -/
def Obligations.FetchFillsPrefetchQueueToSixBytes : Prop :=
  ∀ s : State, s.pq.length ≤ 6 →
    ∃ q, s.fetchInstructions = .ok { s with pq := q } ∧ q.length = 6 ∧ s.pq <+: q ∧
      ∀ k, s.pq.length ≤ k → k < 6 → q[k]? = some (s.read8 (linear (s.sreg .cs) (s.ip + BitVec.ofNat 16 k)))

/-- 20_memory.md R115, R116: fill puts the instruction in slot (head + count) mod depth unless the queue is full; fetch
takes it from slot head unless the queue is empty. -/
def Obligations.DecodedQueueFillAndFetch : Prop :=
  ∀ (q : DQueue) (addr : Addr) (d : Decoded),
    (q.count = q.slots.length → q.fill addr d = .error (.dqFull addr)) ∧
    (q.count ≠ q.slots.length →
      ∃ q', q.fill addr d = .ok q' ∧ q'.head = q.head ∧ q'.count = q.count + 1 ∧ q'.slots.length = q.slots.length ∧
        ∀ k, k < q.slots.length →
          q'.slots[k]? = if k = (q.head + q.count) % q.slots.length then some (some d) else q.slots[k]?) ∧
    (q.count = 0 → q.fetch addr = .error (.dqEmpty addr)) ∧
    (q.count ≠ 0 → q.slots[q.head]? = some (some d) →
      ∃ q', q.fetch addr = .ok (d, q') ∧ q'.head = (q.head + 1) % q.slots.length ∧ q'.count = q.count - 1 ∧
        q'.slots.length = q.slots.length ∧
        ∀ k, k < q.slots.length → q'.slots[k]? = if k = q.head then some none else q.slots[k]?)

/-! ### Arithmetic and logic -/

/-- 41_arith_logic.md R272, R274: ADD and ADC, on the operands of each form (R271). -/
def Obligations.AddAndAdcWriteSumAndSixFlags : Prop :=
  ∀ (p : List Pfx) (s : State), s.mem.wf = true → AluForms s p fun f q =>
    Completes (.add p f) s (SumWritten q false s) ∧
    Completes (.adc p f) s (SumWritten q s.flags.cf s)

/-- 41_arith_logic.md R275, R277, R279: SUB, SBB and CMP, on the operands of each form (R271). -/
def Obligations.SubSbbAndCmpGiveDifferenceAndSixFlags : Prop :=
  ∀ (p : List Pfx) (s : State), s.mem.wf = true → AluForms s p fun f q =>
    Completes (.sub p f) s (DiffWritten q false s) ∧
    Completes (.sbb p f) s (DiffWritten q s.flags.cf s) ∧
    Completes (.cmp p f) s (DiffCompared q s)

/-- 41_arith_logic.md R273, R276, R278, R280: OR, AND, XOR and TEST, on the operands of each form (R271, R280). AF is a
free value (log entry 5). -/
def Obligations.LogicalInstructionsCombineBitsAndClearCarry : Prop :=
  ∀ (p : List Pfx) (s : State), s.mem.wf = true →
    (AluForms s p fun f q =>
      Completes (.lor p f) s (LogicWritten (· || ·) q s) ∧
      Completes (.land p f) s (LogicWritten (· && ·) q s) ∧
      Completes (.lxor p f) s (LogicWritten (· != ·) q s)) ∧
    TestForms s p fun f q => Completes (.test p f) s (AndTested q s)

/-- 41_arith_logic.md R281, R282: INC and DEC, on the operand of each form, leave CF. -/
def Obligations.IncAndDecLeaveCarry : Prop :=
  ∀ (p : List Pfx) (s : State), s.mem.wf = true → IncForms s p fun f q =>
    Completes (.inc p f) s (Incremented q s) ∧ Completes (.dec p f) s (Decremented q s)

/-- 41_arith_logic.md R283, R284: NEG and NOT, on the operand of each form. -/
def Obligations.NegAndNotWriteNegationAndComplement : Prop :=
  ∀ (p : List Pfx) (s : State), s.mem.wf = true → UnaryForms s p fun f q =>
    Completes (.neg p f) s (Negated q s) ∧ Completes (.lnot p f) s (Complemented q s)

/-- 41_arith_logic.md R285, R286: CBW and CWD. -/
def Obligations.CbwAndCwdExtendTheSign : Prop :=
  ∀ (p : List Pfx) (s : State),
    (EncodedAs (.cbw p) p [0x98] ∧
      Completes (.cbw p) s fun t =>
        (t.reg16 .ax).toInt = (s.reg8 .al).toInt ∧ StoresNothing s t { regs := [.ax] }) ∧
    (EncodedAs (.cwd p) p [0x99] ∧
      Completes (.cwd p) s fun t =>
        (t.reg16 .dx).toNat = (if 0x8000 ≤ (s.reg16 .ax).toNat then 0xFFFF else 0) ∧
        StoresNothing s t { regs := [.dx] })

/-! ### Data transfer -/

/-- 42_data_transfer.md R321, R326 to R328: the MOV forms of general registers, memory and immediates. -/
def Obligations.MovWritesSourceToDestination : Prop :=
  ∀ (p : List Pfx) (s : State), s.mem.wf = true →
    (∀ e g, Completes (.movRm p (.ebGb e g)) s fun t => Put8 s t (s.loc p e) (s.reg8 g) [] false) ∧
    (∀ e g, Completes (.movRm p (.evGv e g)) s fun t => Put16 s t (s.loc p e) (s.reg16 g) [] false) ∧
    (∀ e g, Completes (.movRm p (.gbEb g e)) s fun t => Put8 s t (.reg g) (s.readEb p e) [] false) ∧
    (∀ e g, Completes (.movRm p (.gvEv g e)) s fun t => Put16 s t (.reg g) (s.readEv p e) [] false) ∧
    (∀ e i, Completes (.movRmImm p (.ebIb e i)) s fun t => Put8 s t (s.loc p e) i [] false) ∧
    (∀ e i, Completes (.movRmImm p (.evIw e i)) s fun t => Put16 s t (s.loc p e) i [] false) ∧
    (∀ r i, Completes (.movRbIb p r i) s fun t => Put8 s t (.reg r) i [] false) ∧
    (∀ r i, Completes (.movRwIw p r i) s fun t => Put16 s t (.reg r) i [] false)

/-- 42_data_transfer.md R322 to R325: MOV from and to a segment register, and between the accumulator and a direct offset
in DS or the override. -/
def Obligations.MovMovesSegmentRegistersAndDirectOffsets : Prop :=
  ∀ (p : List Pfx) (e : Ea Reg16) (g : SReg) (off : Word) (s : State), s.mem.wf = true →
    let a := linear (s.sreg ((segOverride p).getD .ds)) off
    (Completes (.movFromSeg p e g) s fun t => Put16 s t (s.loc p e) (s.sreg g) [] false) ∧
    (Completes (.movToSeg p g e) s fun t => t.sreg g = s.readEv p e ∧ StoresNothing s t { segs := [g] }) ∧
    (Completes (.movAccMoffs p .byte off) s fun t => Put8 s t (.reg .al) (s.read8 a) [] false) ∧
    (Completes (.movAccMoffs p .word off) s fun t => Put16 s t (.reg .ax) (s.read16 a) [] false) ∧
    (Completes (.movMoffsAcc p .byte off) s fun t => Put8 s t (.mem a) (s.reg8 .al) [] false) ∧
    (Completes (.movMoffsAcc p .word off) s fun t => Put16 s t (.mem a) (s.reg16 .ax) [] false)

/-- 42_data_transfer.md R330, R331: XCHG writes each operand with the other's old value, E first; NOP changes nothing. -/
def Obligations.XchgSwapsOperandsAndNopChangesNothing : Prop :=
  ∀ (p : List Pfx) (s : State), s.mem.wf = true →
    (∀ (e : Ea Reg8) (g : Reg8), Completes (.xchgRm p (.ebGb e g)) s fun t =>
      t.reg8 g = s.readEb p e ∧
      (s.loc p e ≠ .reg g → match s.loc p e with
        | .reg r => t.reg8 r = s.reg8 g
        | .mem a => t.read8 a = if inRom a then s.read8 a else s.reg8 g) ∧
      (∀ j, j ≠ g → s.loc p e ≠ .reg j → t.reg8 j = s.reg8 j) ∧
      t.log = s.log ++ (s.loc p e).events8 (s.reg8 g) ∧
      Frame { regs := Reg8.parent g :: (s.loc p e).regs8, bytes := (s.loc p e).bytes8 } s t) ∧
    (∀ (e : Ea Reg16) (g : Reg16), Completes (.xchgRm p (.evGv e g)) s fun t =>
      t.reg16 g = s.readEv p e ∧
      (s.loc p e ≠ .reg g → Wrote16 s t (s.loc p e) (s.reg16 g)) ∧
      t.log = s.log ++ (s.loc p e).events16 (s.reg16 g) ∧
      Frame { regs := g :: (s.loc p e).regs16, bytes := (s.loc p e).bytes16 } s t) ∧
    (∀ r : Reg16, Completes (.xchgAx p r) s fun t =>
      t.reg16 .ax = s.reg16 r ∧ t.reg16 r = s.reg16 .ax ∧ StoresNothing s t { regs := [.ax, r] }) ∧
    (EncodedAs (.nop p) p [0x90] ∧ Completes (.nop p) s fun t => StoresNothing s t {})

/-- 42_data_transfer.md R332 to R334: LEA loads the offset, whatever the override; LDS and LES load a register and a
segment register from a far pointer, both words read from the state before (30_encoding.md R169). -/
def Obligations.LeaLdsAndLesLoadAddresses : Prop :=
  ∀ (p : List Pfx) (g : Reg16) (m : MemRef) (s : State),
    let seg := s.sreg ((segOverride p).getD (defaultSegment m))
    let off := s.read16 (linear seg (s.ea m))
    let sel := s.read16 (linear seg (s.ea m + 2))
    (Completes (.lea p g m) s fun t => t.reg16 g = s.ea m ∧ StoresNothing s t { regs := [g] }) ∧
    (Completes (.lds p g m) s fun t =>
      t.reg16 g = off ∧ t.sreg .ds = sel ∧ StoresNothing s t { regs := [g], segs := [.ds] }) ∧
    (Completes (.les p g m) s fun t =>
      t.reg16 g = off ∧ t.sreg .es = sel ∧ StoresNothing s t { regs := [g], segs := [.es] })

/-- 42_data_transfer.md R335: XLAT. -/
def Obligations.XlatReadsTableByte : Prop :=
  ∀ (p : List Pfx) (s : State) (off : Word), off.toNat = ((s.reg16 .bx).toNat + (s.reg8 .al).toNat) % 2 ^ 16 →
    EncodedAs (.xlat p) p [0xD7] ∧
    Completes (.xlat p) s fun t =>
      Put8 s t (.reg .al) (s.read8 (linear (s.sreg ((segOverride p).getD .ds)) off)) [] false

/-- 42_data_transfer.md R340 to R343: the pushes; PUSH SP pushes the new or the old SP by the parameter. -/
def Obligations.PushStoresOperandAndLowersStackPointer : Prop :=
  ∀ (p : List Pfx) (s : State), s.mem.wf = true →
    (∀ r, r ≠ .sp →
      Completes (.pushRw p r) s (fun t => Pushed s t (s.reg16 r) [] false) ∧
      Completes (.pushRm p (.reg r)) s (fun t => Pushed s t (s.reg16 r) [] false)) ∧
    (s.params.pushSp = .new →
      Completes (.pushRw p .sp) s (fun t => Pushed s t (s.reg16 .sp - 2) [] false) ∧
      Completes (.pushRm p (.reg .sp)) s (fun t => Pushed s t (s.reg16 .sp - 2) [] false)) ∧
    (s.params.pushSp = .old →
      Completes (.pushRw p .sp) s (fun t => Pushed s t (s.reg16 .sp) [] false) ∧
      Completes (.pushRm p (.reg .sp)) s (fun t => Pushed s t (s.reg16 .sp) [] false)) ∧
    (∀ g, Completes (.pushSr p g) s fun t => Pushed s t (s.sreg g) [] false) ∧
    (∀ m, Completes (.pushRm p (.mem m)) s fun t => Pushed s t (s.read16 (s.memAddr p m)) [] false)

/-- 42_data_transfer.md R344 to R346: the pops; a pop into SP leaves the popped word there, and a memory destination's
address is that of the start. -/
def Obligations.PopLoadsOperandAndRaisesStackPointer : Prop :=
  ∀ (p : List Pfx) (s : State), s.mem.wf = true →
    (∀ r, Completes (.popRw p r) s fun t =>
      t.reg16 r = stackWord s 0 ∧ (r ≠ .sp → t.reg16 .sp = s.reg16 .sp + 2) ∧
      StoresNothing s t { regs := [.sp, r] }) ∧
    (∀ g, Completes (.popSr p g) s fun t =>
      t.sreg g = stackWord s 0 ∧ t.reg16 .sp = s.reg16 .sp + 2 ∧ StoresNothing s t { regs := [.sp], segs := [g] }) ∧
    (∀ e, Completes (.popRm p e) s fun t =>
      Wrote16 s t (s.loc p e) (stackWord s 0) ∧ (s.loc p e ≠ .reg .sp → t.reg16 .sp = s.reg16 .sp + 2) ∧
      t.log = s.log ++ (s.loc p e).events16 (stackWord s 0) ∧
      Frame { regs := .sp :: (s.loc p e).regs16, bytes := (s.loc p e).bytes16 } s t)

/-- 42_data_transfer.md R347, R348: PUSHF pushes the flags image; POPF restores the nine flags. -/
def Obligations.PushfAndPopfMoveTheFlagsImage : Prop :=
  ∀ (p : List Pfx) (s : State), s.mem.wf = true →
    (EncodedAs (.pushf p) p [0x9C] ∧
      Completes (.pushf p) s fun t => Pushed s t (s.flags.image s.params.flagsReserved) [] false) ∧
    (EncodedAs (.popf p) p [0x9D] ∧
      Completes (.popf p) s fun t =>
        t.flags = Flags.restore (stackWord s 0) ∧ t.reg16 .sp = s.reg16 .sp + 2 ∧
        StoresNothing s t { regs := [.sp], flags := allFlags })

/-- 42_data_transfer.md R349, R352: LAHF loads AH with the low byte of the image; SAHF sets five flags from AH. -/
def Obligations.LahfAndSahfMoveFiveFlags : Prop :=
  ∀ (p : List Pfx) (s : State),
    (EncodedAs (.lahf p) p [0x9F] ∧
      Completes (.lahf p) s fun t =>
        (∀ k, k < 8 → (t.reg8 .ah).getLsbD k = (s.flags.image s.params.flagsReserved).getLsbD k) ∧
        t.reg8 .al = s.reg8 .al ∧ StoresNothing s t { regs := [.ax] }) ∧
    (EncodedAs (.sahf p) p [0x9E] ∧
      Completes (.sahf p) s fun t =>
        t.flags.sf = (s.reg8 .ah).getLsbD 7 ∧ t.flags.zf = (s.reg8 .ah).getLsbD 6 ∧
        t.flags.af = (s.reg8 .ah).getLsbD 4 ∧ t.flags.pf = (s.reg8 .ah).getLsbD 2 ∧
        t.flags.cf = (s.reg8 .ah).getLsbD 0 ∧ StoresNothing s t { flags := [.sf, .zf, .af, .pf, .cf] })

/-- 42_data_transfer.md R350, R351: IN loads the accumulator with the port's answer, a free value, and records it; OUT
records the accumulator and changes nothing. -/
def Obligations.PortInputLoadsFreeValueAndOutputOnlyRecords : Prop :=
  ∀ (p : List Pfx) (port : Byte) (s : State),
    let inBytes (n : Word) (t : State) : Prop :=
      t.reg8 .al = Config.portIn8 s.draws ∧ t.reg8 .ah = s.reg8 .ah ∧ t.draws = s.draws + 1 ∧
      t.log = s.log ++ [.portIn n (.b (Config.portIn8 s.draws))] ∧ Frame { regs := [.ax], draws := true } s t
    let inWord (n : Word) (t : State) : Prop :=
      t.reg16 .ax = Config.portIn16 s.draws ∧ t.draws = s.draws + 1 ∧
      t.log = s.log ++ [.portIn n (.w (Config.portIn16 s.draws))] ∧ Frame { regs := [.ax], draws := true } s t
    let out (n : Word) (v : Datum) (t : State) : Prop := t.log = s.log ++ [.portOut n v] ∧ Frame {} s t
    Completes (.inImm p .byte port) s (inBytes (port.setWidth 16)) ∧
    Completes (.inImm p .word port) s (inWord (port.setWidth 16)) ∧
    Completes (.inDx p .byte) s (inBytes (s.reg16 .dx)) ∧
    Completes (.inDx p .word) s (inWord (s.reg16 .dx)) ∧
    Completes (.outImm p .byte port) s (out (port.setWidth 16) (.b (s.reg8 .al))) ∧
    Completes (.outImm p .word port) s (out (port.setWidth 16) (.w (s.reg16 .ax))) ∧
    Completes (.outDx p .byte) s (out (s.reg16 .dx) (.b (s.reg8 .al))) ∧
    Completes (.outDx p .word) s (out (s.reg16 .dx) (.w (s.reg16 .ax)))

/-- 20_memory.md R96: a push followed at once by a pop of another register gives it the pushed word and leaves SP, when
neither byte of the word is in the read-only region. -/
def Obligations.PushThenPopReturnsTheWord : Prop :=
  ∀ (p q : List Pfx) (r d : Reg16) (s : State), s.mem.wf = true → r ≠ .sp → d ≠ .sp →
    s.pushAddr.toNat < 0xF6000 → (s.pushAddr + 1).toNat < 0xF6000 →
    Completes (.pushRw p r) s fun t =>
      Completes (.popRw q d) t fun u => u.reg16 d = s.reg16 r ∧ u.reg16 .sp = s.reg16 .sp

/-! ### Control transfer -/

/-- 43_control_transfer.md R371, R372: each conditional jump goes to IP plus the signed displacement when its condition
holds and leaves IP otherwise. -/
def Obligations.ConditionalJumpsFollowTheirFlagConditions : Prop :=
  ∀ row ∈ jccTable, ∀ (p : List Pfx) (d : Byte) (s : State),
    EncodedAs (row.1 p d) p [row.2.1, d] ∧
    Completes (row.1 p d) s fun t =>
      (row.2.2 s.flags → RelativeTo s.ip d.toInt t.ip) ∧ (¬row.2.2 s.flags → t.ip = s.ip) ∧ IpOnly s t

/-- 43_control_transfer.md R373 to R377: the unconditional jumps. -/
def Obligations.JumpsSetIpAndFarJumpsSetCs : Prop :=
  ∀ (p : List Pfx) (s : State),
    (∀ d, EncodedAs (.jmpShort p d) p [0xEB, d] ∧
      Completes (.jmpShort p d) s fun t => RelativeTo s.ip d.toInt t.ip ∧ IpOnly s t) ∧
    (∀ d, EncodedAs (.jmpNear p d) p (0xE9 :: leBytes d) ∧
      Completes (.jmpNear p d) s fun t => RelativeTo s.ip d.toNat t.ip ∧ IpOnly s t) ∧
    (∀ off sel, Completes (.jmpFar p off sel) s fun t =>
      t.ip = off ∧ t.sreg .cs = sel ∧ StoresNothing s t { segs := [.cs], ip := true }) ∧
    (∀ e, Completes (.jmpRm p e) s fun t => t.ip = s.readEv p e ∧ IpOnly s t) ∧
    (∀ m, Completes (.jmpMem p m) s fun t =>
      t.ip = (s.farPtr p m).1 ∧ t.sreg .cs = (s.farPtr p m).2 ∧ StoresNothing s t { segs := [.cs], ip := true })

/-- 43_control_transfer.md R378 to R381: LOOP, LOOPE and LOOPNE decrement CX without touching a flag and jump when it is
not zero (and ZF is as they ask); JCXZ jumps when CX is zero. -/
def Obligations.LoopsCountInCxAndJcxzTestsIt : Prop :=
  ∀ (p : List Pfx) (d : Byte) (s : State),
    let loops (taken : Prop) (t : State) : Prop :=
      ((t.reg16 .cx).toNat : Int) = ((s.reg16 .cx).toNat - 1 : Int) % 2 ^ 16 ∧
      (taken → RelativeTo s.ip d.toInt t.ip) ∧ (¬taken → t.ip = s.ip) ∧
      StoresNothing s t { regs := [.cx], ip := true }
    (EncodedAs (.loop p d) p [0xE2, d] ∧ Completes (.loop p d) s (loops ((s.reg16 .cx).toNat ≠ 1))) ∧
    (EncodedAs (.loope p d) p [0xE1, d] ∧
      Completes (.loope p d) s (loops ((s.reg16 .cx).toNat ≠ 1 ∧ s.flags.zf = true))) ∧
    (EncodedAs (.loopne p d) p [0xE0, d] ∧
      Completes (.loopne p d) s (loops ((s.reg16 .cx).toNat ≠ 1 ∧ s.flags.zf = false))) ∧
    (EncodedAs (.jcxz p d) p [0xE3, d] ∧
      Completes (.jcxz p d) s fun t =>
        ((s.reg16 .cx).toNat = 0 → RelativeTo s.ip d.toInt t.ip) ∧ ((s.reg16 .cx).toNat ≠ 0 → t.ip = s.ip) ∧
        IpOnly s t)

/-- 43_control_transfer.md R382 to R385: a near call pushes IP, a far call CS and IP; targets are read before the
pushes. -/
def Obligations.CallsPushReturnAddressAndTransfer : Prop :=
  ∀ (p : List Pfx) (s : State), s.mem.wf = true →
    (∀ d, Completes (.callNear p d) s fun t => RelativeTo s.ip d.toNat t.ip ∧ Pushed s t s.ip [] true) ∧
    (∀ e, Completes (.callRm p e) s fun t => t.ip = s.readEv p e ∧ Pushed s t s.ip [] true) ∧
    (∀ off sel, Completes (.callFar p off sel) s fun t => t.ip = off ∧ t.sreg .cs = sel ∧ PushedFar s t) ∧
    (∀ m, Completes (.callMem p m) s fun t =>
      t.ip = (s.farPtr p m).1 ∧ t.sreg .cs = (s.farPtr p m).2 ∧ PushedFar s t)

/-- 43_control_transfer.md R386 to R389: the returns pop IP (and CS) and release the immediate's bytes. -/
def Obligations.ReturnsPopTransferAndRelease : Prop :=
  ∀ (p : List Pfx) (i : Word) (s : State),
    (EncodedAs (.ret p) p [0xC3] ∧ Completes (.ret p) s fun t =>
      t.ip = stackWord s 0 ∧ (t.reg16 .sp).toNat = ((s.reg16 .sp).toNat + 2) % 2 ^ 16 ∧
      StoresNothing s t { regs := [.sp], ip := true }) ∧
    (EncodedAs (.retImm p i) p (0xC2 :: leBytes i) ∧ Completes (.retImm p i) s fun t =>
      t.ip = stackWord s 0 ∧ (t.reg16 .sp).toNat = ((s.reg16 .sp).toNat + 2 + i.toNat) % 2 ^ 16 ∧
      StoresNothing s t { regs := [.sp], ip := true }) ∧
    (EncodedAs (.retf p) p [0xCB] ∧ Completes (.retf p) s fun t =>
      t.ip = stackWord s 0 ∧ t.sreg .cs = stackWord s 1 ∧
      (t.reg16 .sp).toNat = ((s.reg16 .sp).toNat + 4) % 2 ^ 16 ∧
      StoresNothing s t { regs := [.sp], segs := [.cs], ip := true }) ∧
    (EncodedAs (.retfImm p i) p (0xCA :: leBytes i) ∧ Completes (.retfImm p i) s fun t =>
      t.ip = stackWord s 0 ∧ t.sreg .cs = stackWord s 1 ∧
      (t.reg16 .sp).toNat = ((s.reg16 .sp).toNat + 4 + i.toNat) % 2 ^ 16 ∧
      StoresNothing s t { regs := [.sp], segs := [.cs], ip := true })

/-- 60_exceptions.md R490: interrupt entry pushes the flags image, CS and IP, clears IF and TF, loads IP and CS from the
vector after the pushes, clears halted and records the entry. -/
def Obligations.InterruptEntryPushesThreeWordsAndTakesVector : Prop :=
  ∀ (s : State) (n : Byte) (source : IntSource), s.mem.wf = true → Entered s (s.interrupt n source) n source

/-- 43_control_transfer.md R390 to R392: INT, INT3 and INTO enter their vector; INTO with OF = 0 changes nothing. -/
def Obligations.SoftwareInterruptsEnterTheirVector : Prop :=
  ∀ (p : List Pfx) (n : Byte) (s : State), s.mem.wf = true →
    (EncodedAs (.int p n) p [0xCD, n] ∧ Completes (.int p n) s fun t => Entered s t n .software) ∧
    (EncodedAs (.int3 p) p [0xCC] ∧ Completes (.int3 p) s fun t => Entered s t 3 .software) ∧
    (EncodedAs (.into p) p [0xCE] ∧
      Completes (.into p) s fun t =>
        (s.flags.of = true → Entered s t 4 .software) ∧ (s.flags.of = false → StoresNothing s t {}))

/-- 43_control_transfer.md R393: IRET pops IP, CS and the flags image. -/
def Obligations.IretPopsIpCsAndFlags : Prop :=
  ∀ (p : List Pfx) (s : State),
    EncodedAs (.iret p) p [0xCF] ∧
    Completes (.iret p) s fun t =>
      t.ip = stackWord s 0 ∧ t.sreg .cs = stackWord s 1 ∧ t.flags = Flags.restore (stackWord s 2) ∧
      (t.reg16 .sp).toNat = ((s.reg16 .sp).toNat + 6) % 2 ^ 16 ∧
      StoresNothing s t { regs := [.sp], segs := [.cs], flags := allFlags, ip := true }

/-- 60_exceptions.md R496: IRET at once after an interrupt entry gives back IP, CS, SP and every flag, when the three
pushed words are outside the read-only region. -/
def Obligations.IretUndoesInterruptEntry : Prop :=
  ∀ (p : List Pfx) (n : Byte) (source : IntSource) (s : State), s.mem.wf = true → s.params.legal = true →
    (∀ a ∈ [s.pushAddr, s.pushAddr + 1, pushAddr2 s, pushAddr2 s + 1, pushAddr3 s, pushAddr3 s + 1],
      a.toNat < 0xF6000) →
    Completes (.iret p) (s.interrupt n source) fun t =>
      t.ip = s.ip ∧ t.flags = s.flags ∧ t.sregs = s.sregs ∧ t.regs = s.regs

/-! ### Processor control, refused and generic instructions -/

/-- 44_processor_control.md R421 to R428: each flag instruction writes its one flag; HLT sets halted. -/
def Obligations.ProcessorControlWritesOneFlagOrHalts : Prop :=
  ∀ (p : List Pfx) (s : State),
    (EncodedAs (.clc p) p [0xF8] ∧ Completes (.clc p) s fun t => FlagSet s t .cf false) ∧
    (EncodedAs (.stc p) p [0xF9] ∧ Completes (.stc p) s fun t => FlagSet s t .cf true) ∧
    (EncodedAs (.cmc p) p [0xF5] ∧ Completes (.cmc p) s fun t => FlagSet s t .cf (!s.flags.cf)) ∧
    (EncodedAs (.cli p) p [0xFA] ∧ Completes (.cli p) s fun t => FlagSet s t .ifl false) ∧
    (EncodedAs (.sti p) p [0xFB] ∧ Completes (.sti p) s fun t => FlagSet s t .ifl true) ∧
    (EncodedAs (.cld p) p [0xFC] ∧ Completes (.cld p) s fun t => FlagSet s t .df false) ∧
    (EncodedAs (.std p) p [0xFD] ∧ Completes (.std p) s fun t => FlagSet s t .df true) ∧
    (EncodedAs (.hlt p) p [0xF4] ∧
      Completes (.hlt p) s fun t => t.halted = true ∧ StoresNothing s t { halted := true })

/-- 30_encoding.md R192, 60_exceptions.md R485: the twenty-four refused constructors, DAA, DAS, AAA, AAS, WAIT, MOVSB,
MOVSW, CMPSB, CMPSW, STOSB, STOSW, LODSB, LODSW, SCASB, SCASW, the shifts and rotates, AAM, AAD, ESC, LOCK, MUL, IMUL, DIV
and IDIV, refuse in every state, naming their opcode (and the reg field for 0xF6 and 0xF7); no other instruction refuses. -/
def Obligations.RefusedEncodingsRefuseByOpcode : Prop :=
  ∀ (p : List Pfx) (s : State),
    let no (i : Instr) (op : Byte) (ext : Option Oct) : Prop :=
      exec i s = .refused (.notAdmitted op ext (linear (s.sreg .cs) s.ip))
    (no (.daa p) 0x27 none ∧ no (.das p) 0x2F none ∧ no (.aaa p) 0x37 none ∧ no (.aas p) 0x3F none) ∧
    (no (.wait p) 0x9B none ∧ no (.lock p) 0xF0 none ∧ no (.aam p) 0xD4 none ∧ no (.aad p) 0xD5 none) ∧
    (no (.movsb p) 0xA4 none ∧ no (.movsw p) 0xA5 none ∧ no (.cmpsb p) 0xA6 none ∧ no (.cmpsw p) 0xA7 none) ∧
    (no (.stosb p) 0xAA none ∧ no (.stosw p) 0xAB none ∧ no (.lodsb p) 0xAC none ∧ no (.lodsw p) 0xAD none) ∧
    (no (.scasb p) 0xAE none ∧ no (.scasw p) 0xAF none) ∧
    (no (.shiftRotate p .eb1) 0xD0 none ∧ no (.shiftRotate p .ev1) 0xD1 none ∧
      no (.shiftRotate p .ebCl) 0xD2 none ∧ no (.shiftRotate p .evCl) 0xD3 none) ∧
    (∀ k : Oct, no (.esc p k) (BitVec.ofNat 8 (0xD8 + k.toNat)) none) ∧
    (∀ md rm, no (.mul p .byte md rm) 0xF6 (some .o4) ∧ no (.mul p .word md rm) 0xF7 (some .o4) ∧
      no (.imul p .byte md rm) 0xF6 (some .o5) ∧ no (.imul p .word md rm) 0xF7 (some .o5) ∧
      no (.div p .byte md rm) 0xF6 (some .o6) ∧ no (.div p .word md rm) 0xF7 (some .o6) ∧
      no (.idiv p .byte md rm) 0xF6 (some .o7) ∧ no (.idiv p .word md rm) 0xF7 (some .o7)) ∧
    (∀ i r, exec i s = .refused r → i.isRefused = true)

/-- 30_encoding.md R180 to R182, R152: the generic instruction (an unknown encoding, or a prefix byte taken as the opcode)
is its prefixes and the one opcode byte, also for a group encoding. With UNKNOWN_MODE = noop_report it only sets undef_seen
and records its address and bytes; with fault it faults. IP is past the instruction (48_pipeline.md R456), so its address
is its length below. -/
def Obligations.GenericInstructionReportsOrFaults : Prop :=
  ∀ (p : List Pfx) (op m : Byte) (s : State),
    ∀ row ∈ [(Instr.generic p (.byte op), op), (.generic p (.group op m), op), (.segByte p .es, 0x26),
        (.segByte p .cs, 0x2E), (.segByte p .ss, 0x36), (.segByte p .ds, 0x3E), (.repneByte p, 0xF2),
        (.repByte p, 0xF3)],
      let bytes := p.map Pfx.byte ++ [row.2]
      let addr := linear (s.sreg .cs) (s.ip - BitVec.ofNat 16 (p.length + 1))
      row.1.kind = .generic ∧ row.1.opcode = row.2 ∧ row.1.bytes = bytes ∧ row.1.nprefix = p.length ∧
      row.1.len = p.length + 1 ∧ row.1.writesPc = false ∧ row.1.targetStatic = false ∧
      (s.params.unknownMode = .noopReport → Completes row.1 s fun t =>
        t.undefSeen = true ∧ t.log = s.log ++ [.undefined addr bytes] ∧ Frame { undefSeen := true } s t) ∧
      (s.params.unknownMode = .fault → exec row.1 s = .fault (.undefinedInstruction addr bytes))

/-! ### The tick -/

/-- 48_pipeline.md R450, R453 to R456, R458: a step whose fetched bytes decode to an admitted or generic instruction runs
it with IP past it, the queue passed through, and then ends the tick. -/
def Obligations.StepRunsTheDecodedInstruction : Prop :=
  ∀ (s : State) (i : Instr), ReachesFetch s → s.dq.idle = true → s.stepMode = false →
    decode (fetched s) = some i → i.isRefused = false →
    step s = tickEnd s.flags.tf (exec i (advanced s i .executing))

/-- 48_pipeline.md R454, 30_encoding.md R141: a step whose fetched bytes are too few for an instruction faults, and one
that decodes a refused encoding refuses with its opcode and reg field, both at Linear(CS, IP). -/
def Obligations.StepStopsOnUnderflowAndRefusedEncodings : Prop :=
  ∀ s : State, ReachesFetch s →
    (decode (fetched s) = none → step s = .fault (.pqUnderflow (linear (s.sreg .cs) s.ip))) ∧
    (∀ i, decode (fetched s) = some i → i.isRefused = true →
      step s = .refused (.notAdmitted i.opcode i.ext (linear (s.sreg .cs) s.ip)))

/-- 48_pipeline.md R457, R454: in step mode the step after the IP advance is a wait, notified once; it lasts until the host
resumes, and then the step executes the instruction and ends the tick. What a fault there leaves is the state at the
tick's start with the notification in the log. A resume outside a wait is discarded. -/
def Obligations.StepModeWaitsUntilResumedThenExecutes : Prop :=
  (∀ (s : State) (i : Instr), ReachesFetch s → s.dq.idle = true → s.stepMode = true →
    decode (fetched s) = some i → i.isRefused = false →
    let d : Decoded := { instr := i, addr := linear (s.sreg .cs) s.ip, bytes := i.bytes }
    let w : State := { advanced s i (.stepWait d s.pq false) with log := s.log ++ [.stepNotify] }
    step s = .next w ∧ step w = .next w ∧
    ∃ r, w.hostAct .resume = some r ∧ step r = tickEnd s.flags.tf (exec i { w with stage := .executing }) ∧
      r.stopState = { s with stage := .fetching, log := s.log ++ [.stepNotify] }) ∧
  (∀ s : State, s.isWaiting = false → s.hostAct .resume = some s)

/-- 48_pipeline.md R451, R452: a requested stop and, with no interrupt to take, a halted machine make a step that changes
nothing; only NMI, and a maskable request with IF = 1, wake the halted machine. -/
def Obligations.StoppedAndHaltedTicksChangeNothing : Prop :=
  ∀ s : State, s.stage = .fetching →
    (s.stopRequested = true → step s = .next s ∧ tickResult s = .stopped) ∧
    (s.stopRequested = false → s.halted = true → s.nmiLatched = false → (s.flags.ifl = false ∨ s.intr = none) →
      step s = .next s ∧ tickResult s = .halted)

/-- 48_pipeline.md R452, 60_exceptions.md R491, R492, R494: a latched NMI is taken first, whatever IF is, with vector 2; then
a maskable request, only with IF = 1, with the controller's vector. -/
def Obligations.NmiThenMaskableRequestIsTakenBeforeFetch : Prop :=
  ∀ s : State, s.mem.wf = true → s.stage = .fetching → s.stopRequested = false →
    (s.nmiLatched = true → ∃ t, step s = .next t ∧ t.nmiLatched = false ∧ Entered (s.withNmi false) t 2 .nmi) ∧
    (∀ n, s.nmiLatched = false → s.flags.ifl = true → s.intr = some n →
      ∃ t, step s = .next t ∧ Entered s t n .intr)

/-- 60_exceptions.md R498: with TF = 1, TF_MODE = refuse refuses before the fetch; int1 takes vector 1 at the end of the tick,
on the state the instruction left; ignore does neither. -/
def Obligations.TrapFlagFollowsItsMode : Prop :=
  ∀ s : State, s.stage = .fetching → s.stopRequested = false → s.nmiLatched = false →
    (s.flags.ifl = false ∨ s.intr = none) → s.halted = false → s.flags.tf = true →
    (s.params.tfMode = .refuse → step s = .refused (.tfTrapUnmodelled (linear (s.sreg .cs) s.ip))) ∧
    (∀ i t, s.dq.idle = true → s.stepMode = false → s.mem.wf = true → decode (fetched s) = some i →
      i.isRefused = false → exec i (advanced s i .executing) = .next t →
      (s.params.tfMode = .int1 → ∃ u, step s = .next u ∧ Entered { t with stage := .fetching } u 1 .trap) ∧
      (s.params.tfMode = .ignore → step s = .next { t with stage := .fetching }))

/-- 48_pipeline.md R460, R454, R472: a run of `n` steps from `s` comes back exactly at the first state `u`, fewer than `n`
steps from `s`, whose tick ends in Stopped, Fault or Refused, with that result and the state it leaves; if there is none it
is at the state `n` steps from `s`. The same of a run with acts of the host before each step, of which the run without acts
is one. That a stop request made during a StepWait stays after a fault of that tick is the model's choice (log entry 26). -/
def Obligations.RunEndsOnlyAtStopFaultOrRefusal : Prop :=
  (∀ (n : Nat) (s t : State),
    (∀ r, runTicks n s = (some r, t) ↔ ∃ k u, k < n ∧ stepsFrom k s = some u ∧
      (∀ j v, j < k → stepsFrom j s = some v → GoesOn v) ∧ ReturnsAt u r t) ∧
    (runTicks n s = (none, t) ↔ stepsFrom n s = some t ∧ ∀ j v, j < n → stepsFrom j s = some v → GoesOn v)) ∧
  (∀ (sched : List (List HostAct)) (s t : State),
    (∀ r, runHosted sched s = some (some r, t) ↔ ∃ before acts after v u, sched = before ++ acts :: after ∧
      HostedTo before s v ∧ v.hostActs acts = some u ∧ ReturnsAt u r t) ∧
    (runHosted sched s = some (none, t) ↔ HostedTo sched s t)) ∧
  (∀ (n : Nat) (s : State), runHosted (List.replicate n []) s = some (runTicks n s))

/-! ### Rules of the whole machine -/

/-- 10_state.md R41, 60_exceptions.md R498: no instruction writes a flag outside its list, and only POPF and IRET can set
TF. -/
def Obligations.OnlyListedInstructionsWriteFlags : Prop :=
  ∀ (i : Instr) (s t : State), exec i s = .next t →
    (∀ n, n ∉ flagsWritten i → t.flags.get n = s.flags.get n) ∧
    (s.flags.tf = false → t.flags.tf = true → ∃ p, i = .popf p ∨ i = .iret p)

/-- 30_encoding.md R210, 10_state.md R38: an instruction without `writes_pc` leaves IP where the tick put it, and CS if it is
well-formed; no instruction writes a segment register outside its list. -/
def Obligations.OnlyControlTransfersMoveIpAndCs : Prop :=
  ∀ (i : Instr) (s t : State), exec i s = .next t →
    (i.writesPc = false → t.ip = s.ip ∧ (i.wellFormed = true → t.sreg .cs = s.sreg .cs)) ∧
    (∀ g, g ∉ segmentsWritten i → t.sreg g = s.sreg g)

/-- 20_memory.md R85, R90: an instruction that is no store, push, call or software interrupt leaves every byte of memory and
records no memory write. -/
def Obligations.OnlyStoringInstructionsChangeMemory : Prop :=
  ∀ (i : Instr) (s t : State), exec i s = .next t → mayStore i = false →
    t.mem = s.mem ∧ ∃ es, t.log = s.log ++ es ∧ ∀ a v dropped, Event.memWrite a v dropped ∉ es

/-- 20_memory.md R86, 70_reset_and_hazards.md R546: no step changes a byte of the read-only region. -/
def Obligations.StepKeepsReadOnlyMemory : Prop :=
  ∀ (s t : State) (a : Addr), s.mem.wf = true → step s = .next t → 0xF6000 ≤ a.toNat → t.read8 a = s.read8 a

/-- 10_state.md R48, R50, R60, 00_scope.md R8: no step changes a parameter, step_mode, stop_requested or the controller's
answer; none clears undef_seen, sets the NMI latch or edits the log. -/
def Obligations.StepKeepsHostStateAndOnlyAppendsToLog : Prop :=
  ∀ s t : State, step s = .next t →
    t.params = s.params ∧ t.stepMode = s.stepMode ∧ t.stopRequested = s.stopRequested ∧ t.intr = s.intr ∧
    (s.undefSeen = true → t.undefSeen = true) ∧ (t.nmiLatched = true → s.nmiLatched = true) ∧ s.log <+: t.log

/-- 48_pipeline.md R454, 60_exceptions.md R482 to R485, 20_memory.md R117: from a state of the invariant the only faults of a
step are PQ_UNDERFLOW, and UNDEFINED_INSTRUCTION in its mode, and the only refusals NOT_ADMITTED, and TF_TRAP_UNMODELLED in
its mode; outside a StepWait each names Linear(CS, IP). -/
def Obligations.OnlyReachableFaultsAndRefusalsStopAStep : Prop :=
  ∀ s : State, s.Inv →
    (∀ r, step s = .fault r →
      (r = .pqUnderflow s.insAddr ∧ s.stage = .fetching) ∨
      (∃ a bs, r = .undefinedInstruction a bs ∧ s.params.unknownMode = .fault ∧
        (s.stage = .fetching → a = s.insAddr))) ∧
    (∀ r, step s = .refused r → s.stage = .fetching ∧
      ((∃ op ext, r = .notAdmitted op ext s.insAddr) ∨
        (r = .tfTrapUnmodelled s.insAddr ∧ s.flags.tf = true ∧ s.params.tfMode = .refuse)))

/-! ### Encoding -/

/-- 30_encoding.md R142, R143, R195: decoding the bytes of a well-formed instruction, whatever follows them, gives that
instruction. -/
def Obligations.DecodeReadsBackEveryEncoding : Prop :=
  ∀ (i : Instr) (rest : List Byte), i.wellFormed = true → decode (i.encode ++ rest) = some i

/-- 30_encoding.md R141, R143, R144: what decode gives is well-formed, its bytes are the first bytes of the queue, and its
length is between one and six bytes after its at most four prefixes. -/
def Obligations.DecodedInstructionIsTheFirstBytesOfTheQueue : Prop :=
  ∀ (q : List Byte) (i : Instr), decode q = some i →
    i.wellFormed = true ∧ i.encode <+: q ∧ i.bytes <+: q ∧
    i.nprefix + 1 ≤ i.len ∧ i.len ≤ i.nprefix + 6 ∧ i.nprefix ≤ 4

/-- 30_encoding.md R130, R133, R140: no opcode and second byte are accepted by two rows of the template table, and every two
bytes are by one; the rows stand by ascending opcode, then `reg`; no two rows share a kind but GENERIC; and the row that
accepts an instruction's opcode and the byte after it, if there is one, has the mnemonic, the class and the kind of the
instruction that decode gives. -/
def Obligations.NoTwoTemplatesAcceptTheSameBytes : Prop :=
  (templates.Pairwise fun r r' =>
    (∀ op m : Byte, ¬(r.accepts op m = true ∧ r'.accepts op m = true)) ∧ r.rank ≤ r'.rank ∧
    (r.kind = r'.kind → r.kind = .generic)) ∧
  (∀ op m : Byte, ∃ r ∈ templates, r.accepts op m = true) ∧
  (∀ (q : List Byte) (i : Instr), decode q = some i → ∃ op, q[i.nprefix]? = some op ∧
    ∀ m, (q[i.nprefix + 1]? = some m ∨ q[i.nprefix + 1]? = none) →
      ∃ r, firstTemplate op m = some r ∧ r.name = i.mnemonic ∧ r.cls = i.encodingClass ∧ r.kind = i.kind)

/-- Words written out from 30_encoding.md R195 to R202 (and 95_test_vectors.md) decode to what they stand for. -/
def Obligations.DecodesWordsWrittenFromTheSpec : Prop :=
  decode [0x2E, 0x26, 0x04, 0x05] = some (.add [.seg .cs, .seg .es] (.alIb 0x05)) ∧
  decode [0xB8, 0x34, 0x12] = some (.movRwIw [] .ax 0x1234) ∧
  decode [0x80, 0xC0, 0x07] = some (.add [] (.ebIb (.reg .al) 0x07)) ∧
  decode [0xC6, 0x47, 0x02, 0x7F] = some (.movRmImm [] (.ebIb (.mem (.disp8 .bx 0x02)) 0x7F)) ∧
  decode [0xFF, 0x2E, 0x00, 0x02] = some (.jmpMem [] (.direct 0x0200)) ∧
  decode [0xEA, 0x00, 0x01, 0x00, 0x20] = some (.jmpFar [] 0x0100 0x2000)

/-! ### Reset and the invariant -/

/-- 10_state.md R61: what reset leaves where the rule gives a value (CS and IP at the defaults of 00_scope.md R7). -/
def Obligations.ResetLeavesTheValuesOfTheSpec : Prop :=
  let s := State.reset
  s.sreg .cs = 0xFFFF ∧ s.ip = 0 ∧ (∀ n, s.flags.get n = false) ∧ s.pq = [] ∧ s.dq.count = 0 ∧ s.dq.head = 0 ∧
  (∀ d, some d ∉ s.dq.slots) ∧ s.halted = false ∧ s.stepMode = false ∧ s.stage = .fetching ∧ s.nmiLatched = false ∧
  s.stopRequested = false ∧ s.undefSeen = false ∧ s.log = []

/-- The reset state satisfies the invariant, and so does the state after loading an image. 70_reset_and_hazards.md R531:
loading copies the image verbatim to its base address, the read-only region included, and changes no other byte of memory
and nothing else: it records no event. The bytes are stated for an image that fits below 2^20 (log entry 25). -/
def Obligations.ResetAndLoadedStatesSatisfyInvariant : Prop :=
  State.reset.Inv ∧ ∀ (s : State) (base : Addr) (image : List Byte),
    (s.Inv → (s.loadImage base image).Inv) ∧
    s.loadImage base image = { s with mem := (s.loadImage base image).mem } ∧
    (s.mem.wf = true → base.toNat + image.length ≤ 2 ^ 20 → ∀ a : Addr,
      (s.loadImage base image).read8 a =
        if base.toNat ≤ a.toNat then image.getD (a.toNat - base.toNat) (s.read8 a) else s.read8 a)

/-- Every step keeps the invariant: canonical memory, at most six prefetched bytes, an empty decoded queue, a legal
reserved image, and a stage of Fetching, or StepWait with a decoded instruction that IP is past. -/
def Obligations.EveryStepKeepsTheInvariant : Prop :=
  ∀ s t : State, s.Inv → step s = .next t → t.Inv

/-- 48_pipeline.md R470: what each act of the host writes, and nothing else, and when the block does not take it (log entry
8): the assertion of NMI, the controller's answer and the toggle of step mode during a StepWait. A resume marks a StepWait
as resumed and is discarded outside one (R457). Every act that is taken keeps the invariant. -/
def Obligations.HostActsKeepTheInvariant : Prop :=
  (∀ s : State, s.isWaiting = false →
    s.hostAct .assertNmi = some { s with nmiLatched := true } ∧
    (∀ a, s.hostAct (.answerIntr a) = some { s with intr := a }) ∧
    s.hostAct .toggleStep = some { s with stepMode := !s.stepMode } ∧
    s.hostAct .resume = some s) ∧
  (∀ (s : State) (d : Decoded) (pq : List Byte) (resumed : Bool), s.stage = .stepWait d pq resumed →
    s.hostAct .assertNmi = none ∧ (∀ a, s.hostAct (.answerIntr a) = none) ∧ s.hostAct .toggleStep = none ∧
    s.hostAct .resume = some { s with stage := .stepWait d pq true }) ∧
  (∀ s : State, s.hostAct .requestStop = some { s with stopRequested := true }) ∧
  (∀ (s t : State) (a : HostAct), s.Inv → s.hostAct a = some t → t.Inv)

end Statements
end

