-- ==== Sys2Proof/Laws/Alu.lean ====
section
/-! SUPPORT. The flag formulas of 40_alu.md in terms of numbers, at the two widths of the block. -/

namespace Sys2Proof.Machine

theorem auxCarry_bits {n : Nat} (a b r : BitVec n) (h : 5 ≤ n) :
    auxCarry a b r = (a.getLsbD 4 ^^ b.getLsbD 4 ^^ r.getLsbD 4) := by
  have hm : ∀ k, (BitVec.ofNat n 0x10).getLsbD k = (decide (k < n) && decide (k = 4)) := by
    intro k
    rw [BitVec.getLsbD_ofNat, show (0x10 : Nat) = 2 ^ 4 from rfl]
    by_cases hk : k = 4
    · subst hk; rw [Nat.testBit_two_pow_self]; simp
    · rw [Nat.testBit_two_pow_of_ne (fun e => hk e.symm)]; simp [hk]
  have key : ∀ x : BitVec n, (x &&& BitVec.ofNat n 0x10 != 0) = x.getLsbD 4 := by
    intro x
    cases hx : x.getLsbD 4
    · have : x &&& BitVec.ofNat n 0x10 = 0 := by
        apply BitVec.eq_of_getLsbD_eq; intro k hk
        rw [BitVec.getLsbD_and, hm]
        by_cases h4 : k = 4
        · subst h4; simp [hx]
        · simp [h4]
      rw [this]; exact bne_self_eq_false' _
    · have : x &&& BitVec.ofNat n 0x10 ≠ 0 := by
        intro e
        have := congrArg (fun y => y.getLsbD 4) e
        simp only [BitVec.getLsbD_and, hm, hx] at this
        simp at this; omega
      simpa using this
  rw [auxCarry, key]
  simp [BitVec.getLsbD_xor]

theorem bit4_eq {n : Nat} (a : BitVec n) : a.getLsbD 4 = decide (a.toNat / 16 % 2 = 1) := by
  rw [BitVec.getLsbD, Nat.testBit_eq_decide_div_mod_eq]

theorem msb_eq {n : Nat} (a : BitVec n) : a.msb = decide (2 ^ (n - 1) ≤ a.toNat) := by
  rw [BitVec.msb_eq_decide]

/-- AF of a sum is the carry out of bit 3 (40_alu.md R232). -/
theorem auxCarry_sum {n : Nat} (a b r : BitVec n) (c : Bool) (h : n = 8 ∨ n = 16)
    (hr : r.toNat = (a.toNat + b.toNat + c.toNat) % 2 ^ n) :
    auxCarry a b r = decide (16 ≤ a.toNat % 16 + b.toNat % 16 + c.toNat) := by
  rw [auxCarry_bits _ _ _ (by omega), bit4_eq, bit4_eq, bit4_eq]
  have hc := c.toNat_lt
  generalize c.toNat = k at *
  have key : r.toNat / 16 % 2 = (a.toNat / 16 + b.toNat / 16 + (a.toNat % 16 + b.toNat % 16 + k) / 16) % 2 := by
    rcases h with rfl | rfl <;> omega
  by_cases h1 : a.toNat / 16 % 2 = 1 <;> by_cases h2 : b.toNat / 16 % 2 = 1 <;>
    by_cases h3 : 16 ≤ a.toNat % 16 + b.toNat % 16 + k <;> simp [h1, h2, h3] <;> omega

/-- AF of a difference is the borrow into bit 3 (40_alu.md R232). -/
theorem auxCarry_diff {n : Nat} (a b r : BitVec n) (c : Bool) (h : n = 8 ∨ n = 16)
    (hr : (r.toNat : Int) = ((a.toNat : Int) - b.toNat - c.toNat) % 2 ^ n) :
    auxCarry a b r = decide (a.toNat % 16 < b.toNat % 16 + c.toNat) := by
  rw [auxCarry_bits _ _ _ (by omega), bit4_eq, bit4_eq, bit4_eq]
  have hc := c.toNat_lt
  have ha := a.isLt
  have hb := b.isLt
  generalize c.toNat = k at *
  have key : (r.toNat / 16 + b.toNat / 16 + (if a.toNat % 16 < b.toNat % 16 + k then 1 else 0)) % 2
      = a.toNat / 16 % 2 := by
    rcases h with rfl | rfl <;> split <;> omega
  by_cases h1 : a.toNat / 16 % 2 = 1 <;> by_cases h2 : b.toNat / 16 % 2 = 1 <;>
    by_cases h3 : a.toNat % 16 < b.toNat % 16 + k <;> simp [h1, h2, h3] at key ⊢ <;> omega

/-- The sign rule of a sum, on numbers: `H` is half the modulus. -/
theorem sum_sign (H x y z k : Nat) (hx : x < 2 * H) (hy : y < 2 * H) (hk : k < 2)
    (hz : z = (x + y + k) % (2 * H)) :
    ((!(decide (H ≤ x) ^^ decide (H ≤ y))) && (decide (H ≤ x) ^^ decide (H ≤ z))) =
      decide ((if 2 * x < 2 * H then (x : Int) else x - (2 * H : Nat)) +
            (if 2 * y < 2 * H then (y : Int) else y - (2 * H : Nat)) + k < -H ∨
          (H : Int) ≤ (if 2 * x < 2 * H then (x : Int) else x - (2 * H : Nat)) +
            (if 2 * y < 2 * H then (y : Int) else y - (2 * H : Nat)) + k) := by
  have h0 : z = x + y + k ∧ x + y + k < 2 * H ∨ z + 2 * H = x + y + k := by
    by_cases h : x + y + k < 2 * H
    · exact .inl ⟨by rw [hz, Nat.mod_eq_of_lt h], h⟩
    · refine .inr ?_
      rw [hz, Nat.mod_eq_sub_mod (by omega), Nat.mod_eq_of_lt (by omega)]; omega
  by_cases h1 : H ≤ x <;> by_cases h2 : H ≤ y <;> by_cases h3 : H ≤ z <;>
    simp [h1, h2, h3] <;> omega

/-- The sign rule of a difference, on numbers. -/
theorem diff_sign (H x y z k : Nat) (hx : x < 2 * H) (hy : y < 2 * H) (hk : k < 2)
    (hz : (z : Int) = ((x : Int) - y - k) % (2 * H : Nat)) :
    ((decide (H ≤ x) ^^ decide (H ≤ y)) && (decide (H ≤ x) ^^ decide (H ≤ z))) =
      decide ((if 2 * x < 2 * H then (x : Int) else x - (2 * H : Nat)) -
            (if 2 * y < 2 * H then (y : Int) else y - (2 * H : Nat)) - k < -H ∨
          (H : Int) ≤ (if 2 * x < 2 * H then (x : Int) else x - (2 * H : Nat)) -
            (if 2 * y < 2 * H then (y : Int) else y - (2 * H : Nat)) - k) := by
  have h0 : (z : Int) = x - y - k ∧ y + k ≤ x ∨ (z : Int) = x - y - k + 2 * H ∧ x < y + k := by
    by_cases h : y + k ≤ x
    · exact .inl ⟨by rw [hz, Int.emod_eq_of_lt (by omega) (by omega)], h⟩
    · refine .inr ⟨?_, by omega⟩
      rw [hz, ← Int.add_emod_right, Int.emod_eq_of_lt (by omega) (by omega)]; omega
  by_cases h1 : H ≤ x <;> by_cases h2 : H ≤ y <;> by_cases h3 : H ≤ z <;>
    simp [h1, h2, h3] <;> omega

/-- OF of a sum says that the signed sum does not fit (40_alu.md R237). -/
theorem addOverflow_sum {n : Nat} (a b r : BitVec n) (c : Bool) (h : n = 8 ∨ n = 16)
    (hr : r.toNat = (a.toNat + b.toNat + c.toNat) % 2 ^ n) :
    addOverflow a b r =
      decide (a.toInt + b.toInt + c.toNat < -2 ^ (n - 1) ∨ 2 ^ (n - 1) ≤ a.toInt + b.toInt + c.toNat) := by
  have hp : 2 ^ n = 2 * 2 ^ (n - 1) := by rcases h with rfl | rfl <;> rfl
  have key := sum_sign (2 ^ (n - 1)) a.toNat b.toNat r.toNat c.toNat (hp ▸ a.isLt) (hp ▸ b.isLt) c.toNat_lt (hp ▸ hr)
  have hn : decide (0 < n) = true := decide_eq_true (by omega)
  rw [addOverflow, BitVec.msb_and, BitVec.msb_not, hn, Bool.true_and, BitVec.msb_xor, BitVec.msb_xor, msb_eq, msb_eq,
    msb_eq, BitVec.toInt_eq_toNat_cond, BitVec.toInt_eq_toNat_cond, hp, key]
  push_cast
  rfl

/-- OF of a difference says that the signed difference does not fit (40_alu.md R237). -/
theorem subOverflow_diff {n : Nat} (a b r : BitVec n) (c : Bool) (h : n = 8 ∨ n = 16)
    (hr : (r.toNat : Int) = ((a.toNat : Int) - b.toNat - c.toNat) % 2 ^ n) :
    subOverflow a b r =
      decide (a.toInt - b.toInt - c.toNat < -2 ^ (n - 1) ∨ 2 ^ (n - 1) ≤ a.toInt - b.toInt - c.toNat) := by
  have hp : 2 ^ n = 2 * 2 ^ (n - 1) := by rcases h with rfl | rfl <;> rfl
  have hq : (2 : Int) ^ n = (2 * 2 ^ (n - 1) : Nat) := by rcases h with rfl | rfl <;> rfl
  have key := diff_sign (2 ^ (n - 1)) a.toNat b.toNat r.toNat c.toNat (hp ▸ a.isLt) (hp ▸ b.isLt) c.toNat_lt (hq ▸ hr)
  rw [subOverflow, BitVec.msb_and, BitVec.msb_xor, BitVec.msb_xor, msb_eq, msb_eq, msb_eq, BitVec.toInt_eq_toNat_cond,
    BitVec.toInt_eq_toNat_cond, hp, key]
  push_cast
  rfl

/-- CF of a sum (40_alu.md R233). -/
theorem addCarry_eq {n : Nat} (a b : BitVec n) (c : Bool) :
    addCarry a b c = decide (2 ^ n ≤ a.toNat + b.toNat + c.toNat) := by
  have : 0 < 2 ^ n := Nat.two_pow_pos n
  simp only [addCarry, decide_eq_decide]; omega

/-- The result of a sum as a number. -/
theorem sum_toNat {n : Nat} (a b : BitVec n) (c : Bool) (h : n = 8 ∨ n = 16) :
    (a + b + BitVec.ofNat n c.toNat).toNat = (a.toNat + b.toNat + c.toNat) % 2 ^ n := by
  have hc := c.toNat_lt
  rcases h with rfl | rfl <;> simp [BitVec.toNat_add]

/-- The result of a difference as a number. -/
theorem diff_toNat {n : Nat} (a b : BitVec n) (c : Bool) (h : n = 8 ∨ n = 16) :
    ((a - b - BitVec.ofNat n c.toNat).toNat : Int) = ((a.toNat : Int) - b.toNat - c.toNat) % 2 ^ n := by
  have hc := c.toNat_lt
  have ha := a.isLt
  have hb := b.isLt
  rcases h with rfl | rfl <;> simp [BitVec.toNat_sub] <;> omega

end Sys2Proof.Machine
end

