-- ==== Sys2Proof/Laws/State.lean ====
section
/-! SUPPORT. Each field after each field update of the state. -/

namespace Sys2Proof.Machine

variable (s : State)

/-! ### State.withRegs -/

@[simp] theorem State.withRegs_regs (r : Regs) : (s.withRegs r).regs = r := rfl
@[simp] theorem State.withRegs_sregs (r : Regs) : (s.withRegs r).sregs = s.sregs := rfl
@[simp] theorem State.withRegs_ip (r : Regs) : (s.withRegs r).ip = s.ip := rfl
@[simp] theorem State.withRegs_flags (r : Regs) : (s.withRegs r).flags = s.flags := rfl
@[simp] theorem State.withRegs_pq (r : Regs) : (s.withRegs r).pq = s.pq := rfl
@[simp] theorem State.withRegs_dq (r : Regs) : (s.withRegs r).dq = s.dq := rfl
@[simp] theorem State.withRegs_halted (r : Regs) : (s.withRegs r).halted = s.halted := rfl
@[simp] theorem State.withRegs_stepMode (r : Regs) : (s.withRegs r).stepMode = s.stepMode := rfl
@[simp] theorem State.withRegs_stage (r : Regs) : (s.withRegs r).stage = s.stage := rfl
@[simp] theorem State.withRegs_nmiLatched (r : Regs) : (s.withRegs r).nmiLatched = s.nmiLatched := rfl
@[simp] theorem State.withRegs_stopRequested (r : Regs) : (s.withRegs r).stopRequested = s.stopRequested := rfl
@[simp] theorem State.withRegs_undefSeen (r : Regs) : (s.withRegs r).undefSeen = s.undefSeen := rfl
@[simp] theorem State.withRegs_log (r : Regs) : (s.withRegs r).log = s.log := rfl
@[simp] theorem State.withRegs_mem (r : Regs) : (s.withRegs r).mem = s.mem := rfl
@[simp] theorem State.withRegs_params (r : Regs) : (s.withRegs r).params = s.params := rfl
@[simp] theorem State.withRegs_intr (r : Regs) : (s.withRegs r).intr = s.intr := rfl
@[simp] theorem State.withRegs_draws (r : Regs) : (s.withRegs r).draws = s.draws := rfl

/-! ### State.withSregs -/

@[simp] theorem State.withSregs_regs (r : SRegs) : (s.withSregs r).regs = s.regs := rfl
@[simp] theorem State.withSregs_sregs (r : SRegs) : (s.withSregs r).sregs = r := rfl
@[simp] theorem State.withSregs_ip (r : SRegs) : (s.withSregs r).ip = s.ip := rfl
@[simp] theorem State.withSregs_flags (r : SRegs) : (s.withSregs r).flags = s.flags := rfl
@[simp] theorem State.withSregs_pq (r : SRegs) : (s.withSregs r).pq = s.pq := rfl
@[simp] theorem State.withSregs_dq (r : SRegs) : (s.withSregs r).dq = s.dq := rfl
@[simp] theorem State.withSregs_halted (r : SRegs) : (s.withSregs r).halted = s.halted := rfl
@[simp] theorem State.withSregs_stepMode (r : SRegs) : (s.withSregs r).stepMode = s.stepMode := rfl
@[simp] theorem State.withSregs_stage (r : SRegs) : (s.withSregs r).stage = s.stage := rfl
@[simp] theorem State.withSregs_nmiLatched (r : SRegs) : (s.withSregs r).nmiLatched = s.nmiLatched := rfl
@[simp] theorem State.withSregs_stopRequested (r : SRegs) : (s.withSregs r).stopRequested = s.stopRequested := rfl
@[simp] theorem State.withSregs_undefSeen (r : SRegs) : (s.withSregs r).undefSeen = s.undefSeen := rfl
@[simp] theorem State.withSregs_log (r : SRegs) : (s.withSregs r).log = s.log := rfl
@[simp] theorem State.withSregs_mem (r : SRegs) : (s.withSregs r).mem = s.mem := rfl
@[simp] theorem State.withSregs_params (r : SRegs) : (s.withSregs r).params = s.params := rfl
@[simp] theorem State.withSregs_intr (r : SRegs) : (s.withSregs r).intr = s.intr := rfl
@[simp] theorem State.withSregs_draws (r : SRegs) : (s.withSregs r).draws = s.draws := rfl

/-! ### State.withIp -/

@[simp] theorem State.withIp_regs (v : Word) : (s.withIp v).regs = s.regs := rfl
@[simp] theorem State.withIp_sregs (v : Word) : (s.withIp v).sregs = s.sregs := rfl
@[simp] theorem State.withIp_ip (v : Word) : (s.withIp v).ip = v := rfl
@[simp] theorem State.withIp_flags (v : Word) : (s.withIp v).flags = s.flags := rfl
@[simp] theorem State.withIp_pq (v : Word) : (s.withIp v).pq = s.pq := rfl
@[simp] theorem State.withIp_dq (v : Word) : (s.withIp v).dq = s.dq := rfl
@[simp] theorem State.withIp_halted (v : Word) : (s.withIp v).halted = s.halted := rfl
@[simp] theorem State.withIp_stepMode (v : Word) : (s.withIp v).stepMode = s.stepMode := rfl
@[simp] theorem State.withIp_stage (v : Word) : (s.withIp v).stage = s.stage := rfl
@[simp] theorem State.withIp_nmiLatched (v : Word) : (s.withIp v).nmiLatched = s.nmiLatched := rfl
@[simp] theorem State.withIp_stopRequested (v : Word) : (s.withIp v).stopRequested = s.stopRequested := rfl
@[simp] theorem State.withIp_undefSeen (v : Word) : (s.withIp v).undefSeen = s.undefSeen := rfl
@[simp] theorem State.withIp_log (v : Word) : (s.withIp v).log = s.log := rfl
@[simp] theorem State.withIp_mem (v : Word) : (s.withIp v).mem = s.mem := rfl
@[simp] theorem State.withIp_params (v : Word) : (s.withIp v).params = s.params := rfl
@[simp] theorem State.withIp_intr (v : Word) : (s.withIp v).intr = s.intr := rfl
@[simp] theorem State.withIp_draws (v : Word) : (s.withIp v).draws = s.draws := rfl

/-! ### State.withFlags -/

@[simp] theorem State.withFlags_regs (f : Flags) : (s.withFlags f).regs = s.regs := rfl
@[simp] theorem State.withFlags_sregs (f : Flags) : (s.withFlags f).sregs = s.sregs := rfl
@[simp] theorem State.withFlags_ip (f : Flags) : (s.withFlags f).ip = s.ip := rfl
@[simp] theorem State.withFlags_flags (f : Flags) : (s.withFlags f).flags = f := rfl
@[simp] theorem State.withFlags_pq (f : Flags) : (s.withFlags f).pq = s.pq := rfl
@[simp] theorem State.withFlags_dq (f : Flags) : (s.withFlags f).dq = s.dq := rfl
@[simp] theorem State.withFlags_halted (f : Flags) : (s.withFlags f).halted = s.halted := rfl
@[simp] theorem State.withFlags_stepMode (f : Flags) : (s.withFlags f).stepMode = s.stepMode := rfl
@[simp] theorem State.withFlags_stage (f : Flags) : (s.withFlags f).stage = s.stage := rfl
@[simp] theorem State.withFlags_nmiLatched (f : Flags) : (s.withFlags f).nmiLatched = s.nmiLatched := rfl
@[simp] theorem State.withFlags_stopRequested (f : Flags) : (s.withFlags f).stopRequested = s.stopRequested := rfl
@[simp] theorem State.withFlags_undefSeen (f : Flags) : (s.withFlags f).undefSeen = s.undefSeen := rfl
@[simp] theorem State.withFlags_log (f : Flags) : (s.withFlags f).log = s.log := rfl
@[simp] theorem State.withFlags_mem (f : Flags) : (s.withFlags f).mem = s.mem := rfl
@[simp] theorem State.withFlags_params (f : Flags) : (s.withFlags f).params = s.params := rfl
@[simp] theorem State.withFlags_intr (f : Flags) : (s.withFlags f).intr = s.intr := rfl
@[simp] theorem State.withFlags_draws (f : Flags) : (s.withFlags f).draws = s.draws := rfl

/-! ### State.withPq -/

@[simp] theorem State.withPq_regs (q : List Byte) : (s.withPq q).regs = s.regs := rfl
@[simp] theorem State.withPq_sregs (q : List Byte) : (s.withPq q).sregs = s.sregs := rfl
@[simp] theorem State.withPq_ip (q : List Byte) : (s.withPq q).ip = s.ip := rfl
@[simp] theorem State.withPq_flags (q : List Byte) : (s.withPq q).flags = s.flags := rfl
@[simp] theorem State.withPq_pq (q : List Byte) : (s.withPq q).pq = q := rfl
@[simp] theorem State.withPq_dq (q : List Byte) : (s.withPq q).dq = s.dq := rfl
@[simp] theorem State.withPq_halted (q : List Byte) : (s.withPq q).halted = s.halted := rfl
@[simp] theorem State.withPq_stepMode (q : List Byte) : (s.withPq q).stepMode = s.stepMode := rfl
@[simp] theorem State.withPq_stage (q : List Byte) : (s.withPq q).stage = s.stage := rfl
@[simp] theorem State.withPq_nmiLatched (q : List Byte) : (s.withPq q).nmiLatched = s.nmiLatched := rfl
@[simp] theorem State.withPq_stopRequested (q : List Byte) : (s.withPq q).stopRequested = s.stopRequested := rfl
@[simp] theorem State.withPq_undefSeen (q : List Byte) : (s.withPq q).undefSeen = s.undefSeen := rfl
@[simp] theorem State.withPq_log (q : List Byte) : (s.withPq q).log = s.log := rfl
@[simp] theorem State.withPq_mem (q : List Byte) : (s.withPq q).mem = s.mem := rfl
@[simp] theorem State.withPq_params (q : List Byte) : (s.withPq q).params = s.params := rfl
@[simp] theorem State.withPq_intr (q : List Byte) : (s.withPq q).intr = s.intr := rfl
@[simp] theorem State.withPq_draws (q : List Byte) : (s.withPq q).draws = s.draws := rfl

/-! ### State.withDq -/

@[simp] theorem State.withDq_regs (q : DQueue) : (s.withDq q).regs = s.regs := rfl
@[simp] theorem State.withDq_sregs (q : DQueue) : (s.withDq q).sregs = s.sregs := rfl
@[simp] theorem State.withDq_ip (q : DQueue) : (s.withDq q).ip = s.ip := rfl
@[simp] theorem State.withDq_flags (q : DQueue) : (s.withDq q).flags = s.flags := rfl
@[simp] theorem State.withDq_pq (q : DQueue) : (s.withDq q).pq = s.pq := rfl
@[simp] theorem State.withDq_dq (q : DQueue) : (s.withDq q).dq = q := rfl
@[simp] theorem State.withDq_halted (q : DQueue) : (s.withDq q).halted = s.halted := rfl
@[simp] theorem State.withDq_stepMode (q : DQueue) : (s.withDq q).stepMode = s.stepMode := rfl
@[simp] theorem State.withDq_stage (q : DQueue) : (s.withDq q).stage = s.stage := rfl
@[simp] theorem State.withDq_nmiLatched (q : DQueue) : (s.withDq q).nmiLatched = s.nmiLatched := rfl
@[simp] theorem State.withDq_stopRequested (q : DQueue) : (s.withDq q).stopRequested = s.stopRequested := rfl
@[simp] theorem State.withDq_undefSeen (q : DQueue) : (s.withDq q).undefSeen = s.undefSeen := rfl
@[simp] theorem State.withDq_log (q : DQueue) : (s.withDq q).log = s.log := rfl
@[simp] theorem State.withDq_mem (q : DQueue) : (s.withDq q).mem = s.mem := rfl
@[simp] theorem State.withDq_params (q : DQueue) : (s.withDq q).params = s.params := rfl
@[simp] theorem State.withDq_intr (q : DQueue) : (s.withDq q).intr = s.intr := rfl
@[simp] theorem State.withDq_draws (q : DQueue) : (s.withDq q).draws = s.draws := rfl

/-! ### State.withHalted -/

@[simp] theorem State.withHalted_regs (b : Bool) : (s.withHalted b).regs = s.regs := rfl
@[simp] theorem State.withHalted_sregs (b : Bool) : (s.withHalted b).sregs = s.sregs := rfl
@[simp] theorem State.withHalted_ip (b : Bool) : (s.withHalted b).ip = s.ip := rfl
@[simp] theorem State.withHalted_flags (b : Bool) : (s.withHalted b).flags = s.flags := rfl
@[simp] theorem State.withHalted_pq (b : Bool) : (s.withHalted b).pq = s.pq := rfl
@[simp] theorem State.withHalted_dq (b : Bool) : (s.withHalted b).dq = s.dq := rfl
@[simp] theorem State.withHalted_halted (b : Bool) : (s.withHalted b).halted = b := rfl
@[simp] theorem State.withHalted_stepMode (b : Bool) : (s.withHalted b).stepMode = s.stepMode := rfl
@[simp] theorem State.withHalted_stage (b : Bool) : (s.withHalted b).stage = s.stage := rfl
@[simp] theorem State.withHalted_nmiLatched (b : Bool) : (s.withHalted b).nmiLatched = s.nmiLatched := rfl
@[simp] theorem State.withHalted_stopRequested (b : Bool) : (s.withHalted b).stopRequested = s.stopRequested := rfl
@[simp] theorem State.withHalted_undefSeen (b : Bool) : (s.withHalted b).undefSeen = s.undefSeen := rfl
@[simp] theorem State.withHalted_log (b : Bool) : (s.withHalted b).log = s.log := rfl
@[simp] theorem State.withHalted_mem (b : Bool) : (s.withHalted b).mem = s.mem := rfl
@[simp] theorem State.withHalted_params (b : Bool) : (s.withHalted b).params = s.params := rfl
@[simp] theorem State.withHalted_intr (b : Bool) : (s.withHalted b).intr = s.intr := rfl
@[simp] theorem State.withHalted_draws (b : Bool) : (s.withHalted b).draws = s.draws := rfl

/-! ### State.withStepMode -/

@[simp] theorem State.withStepMode_regs (b : Bool) : (s.withStepMode b).regs = s.regs := rfl
@[simp] theorem State.withStepMode_sregs (b : Bool) : (s.withStepMode b).sregs = s.sregs := rfl
@[simp] theorem State.withStepMode_ip (b : Bool) : (s.withStepMode b).ip = s.ip := rfl
@[simp] theorem State.withStepMode_flags (b : Bool) : (s.withStepMode b).flags = s.flags := rfl
@[simp] theorem State.withStepMode_pq (b : Bool) : (s.withStepMode b).pq = s.pq := rfl
@[simp] theorem State.withStepMode_dq (b : Bool) : (s.withStepMode b).dq = s.dq := rfl
@[simp] theorem State.withStepMode_halted (b : Bool) : (s.withStepMode b).halted = s.halted := rfl
@[simp] theorem State.withStepMode_stepMode (b : Bool) : (s.withStepMode b).stepMode = b := rfl
@[simp] theorem State.withStepMode_stage (b : Bool) : (s.withStepMode b).stage = s.stage := rfl
@[simp] theorem State.withStepMode_nmiLatched (b : Bool) : (s.withStepMode b).nmiLatched = s.nmiLatched := rfl
@[simp] theorem State.withStepMode_stopRequested (b : Bool) : (s.withStepMode b).stopRequested = s.stopRequested := rfl
@[simp] theorem State.withStepMode_undefSeen (b : Bool) : (s.withStepMode b).undefSeen = s.undefSeen := rfl
@[simp] theorem State.withStepMode_log (b : Bool) : (s.withStepMode b).log = s.log := rfl
@[simp] theorem State.withStepMode_mem (b : Bool) : (s.withStepMode b).mem = s.mem := rfl
@[simp] theorem State.withStepMode_params (b : Bool) : (s.withStepMode b).params = s.params := rfl
@[simp] theorem State.withStepMode_intr (b : Bool) : (s.withStepMode b).intr = s.intr := rfl
@[simp] theorem State.withStepMode_draws (b : Bool) : (s.withStepMode b).draws = s.draws := rfl

/-! ### State.withStage -/

@[simp] theorem State.withStage_regs (g : Stage) : (s.withStage g).regs = s.regs := rfl
@[simp] theorem State.withStage_sregs (g : Stage) : (s.withStage g).sregs = s.sregs := rfl
@[simp] theorem State.withStage_ip (g : Stage) : (s.withStage g).ip = s.ip := rfl
@[simp] theorem State.withStage_flags (g : Stage) : (s.withStage g).flags = s.flags := rfl
@[simp] theorem State.withStage_pq (g : Stage) : (s.withStage g).pq = s.pq := rfl
@[simp] theorem State.withStage_dq (g : Stage) : (s.withStage g).dq = s.dq := rfl
@[simp] theorem State.withStage_halted (g : Stage) : (s.withStage g).halted = s.halted := rfl
@[simp] theorem State.withStage_stepMode (g : Stage) : (s.withStage g).stepMode = s.stepMode := rfl
@[simp] theorem State.withStage_stage (g : Stage) : (s.withStage g).stage = g := rfl
@[simp] theorem State.withStage_nmiLatched (g : Stage) : (s.withStage g).nmiLatched = s.nmiLatched := rfl
@[simp] theorem State.withStage_stopRequested (g : Stage) : (s.withStage g).stopRequested = s.stopRequested := rfl
@[simp] theorem State.withStage_undefSeen (g : Stage) : (s.withStage g).undefSeen = s.undefSeen := rfl
@[simp] theorem State.withStage_log (g : Stage) : (s.withStage g).log = s.log := rfl
@[simp] theorem State.withStage_mem (g : Stage) : (s.withStage g).mem = s.mem := rfl
@[simp] theorem State.withStage_params (g : Stage) : (s.withStage g).params = s.params := rfl
@[simp] theorem State.withStage_intr (g : Stage) : (s.withStage g).intr = s.intr := rfl
@[simp] theorem State.withStage_draws (g : Stage) : (s.withStage g).draws = s.draws := rfl

/-! ### State.withNmi -/

@[simp] theorem State.withNmi_regs (b : Bool) : (s.withNmi b).regs = s.regs := rfl
@[simp] theorem State.withNmi_sregs (b : Bool) : (s.withNmi b).sregs = s.sregs := rfl
@[simp] theorem State.withNmi_ip (b : Bool) : (s.withNmi b).ip = s.ip := rfl
@[simp] theorem State.withNmi_flags (b : Bool) : (s.withNmi b).flags = s.flags := rfl
@[simp] theorem State.withNmi_pq (b : Bool) : (s.withNmi b).pq = s.pq := rfl
@[simp] theorem State.withNmi_dq (b : Bool) : (s.withNmi b).dq = s.dq := rfl
@[simp] theorem State.withNmi_halted (b : Bool) : (s.withNmi b).halted = s.halted := rfl
@[simp] theorem State.withNmi_stepMode (b : Bool) : (s.withNmi b).stepMode = s.stepMode := rfl
@[simp] theorem State.withNmi_stage (b : Bool) : (s.withNmi b).stage = s.stage := rfl
@[simp] theorem State.withNmi_nmiLatched (b : Bool) : (s.withNmi b).nmiLatched = b := rfl
@[simp] theorem State.withNmi_stopRequested (b : Bool) : (s.withNmi b).stopRequested = s.stopRequested := rfl
@[simp] theorem State.withNmi_undefSeen (b : Bool) : (s.withNmi b).undefSeen = s.undefSeen := rfl
@[simp] theorem State.withNmi_log (b : Bool) : (s.withNmi b).log = s.log := rfl
@[simp] theorem State.withNmi_mem (b : Bool) : (s.withNmi b).mem = s.mem := rfl
@[simp] theorem State.withNmi_params (b : Bool) : (s.withNmi b).params = s.params := rfl
@[simp] theorem State.withNmi_intr (b : Bool) : (s.withNmi b).intr = s.intr := rfl
@[simp] theorem State.withNmi_draws (b : Bool) : (s.withNmi b).draws = s.draws := rfl

/-! ### State.withStop -/

@[simp] theorem State.withStop_regs (b : Bool) : (s.withStop b).regs = s.regs := rfl
@[simp] theorem State.withStop_sregs (b : Bool) : (s.withStop b).sregs = s.sregs := rfl
@[simp] theorem State.withStop_ip (b : Bool) : (s.withStop b).ip = s.ip := rfl
@[simp] theorem State.withStop_flags (b : Bool) : (s.withStop b).flags = s.flags := rfl
@[simp] theorem State.withStop_pq (b : Bool) : (s.withStop b).pq = s.pq := rfl
@[simp] theorem State.withStop_dq (b : Bool) : (s.withStop b).dq = s.dq := rfl
@[simp] theorem State.withStop_halted (b : Bool) : (s.withStop b).halted = s.halted := rfl
@[simp] theorem State.withStop_stepMode (b : Bool) : (s.withStop b).stepMode = s.stepMode := rfl
@[simp] theorem State.withStop_stage (b : Bool) : (s.withStop b).stage = s.stage := rfl
@[simp] theorem State.withStop_nmiLatched (b : Bool) : (s.withStop b).nmiLatched = s.nmiLatched := rfl
@[simp] theorem State.withStop_stopRequested (b : Bool) : (s.withStop b).stopRequested = b := rfl
@[simp] theorem State.withStop_undefSeen (b : Bool) : (s.withStop b).undefSeen = s.undefSeen := rfl
@[simp] theorem State.withStop_log (b : Bool) : (s.withStop b).log = s.log := rfl
@[simp] theorem State.withStop_mem (b : Bool) : (s.withStop b).mem = s.mem := rfl
@[simp] theorem State.withStop_params (b : Bool) : (s.withStop b).params = s.params := rfl
@[simp] theorem State.withStop_intr (b : Bool) : (s.withStop b).intr = s.intr := rfl
@[simp] theorem State.withStop_draws (b : Bool) : (s.withStop b).draws = s.draws := rfl

/-! ### State.withUndef -/

@[simp] theorem State.withUndef_regs (b : Bool) : (s.withUndef b).regs = s.regs := rfl
@[simp] theorem State.withUndef_sregs (b : Bool) : (s.withUndef b).sregs = s.sregs := rfl
@[simp] theorem State.withUndef_ip (b : Bool) : (s.withUndef b).ip = s.ip := rfl
@[simp] theorem State.withUndef_flags (b : Bool) : (s.withUndef b).flags = s.flags := rfl
@[simp] theorem State.withUndef_pq (b : Bool) : (s.withUndef b).pq = s.pq := rfl
@[simp] theorem State.withUndef_dq (b : Bool) : (s.withUndef b).dq = s.dq := rfl
@[simp] theorem State.withUndef_halted (b : Bool) : (s.withUndef b).halted = s.halted := rfl
@[simp] theorem State.withUndef_stepMode (b : Bool) : (s.withUndef b).stepMode = s.stepMode := rfl
@[simp] theorem State.withUndef_stage (b : Bool) : (s.withUndef b).stage = s.stage := rfl
@[simp] theorem State.withUndef_nmiLatched (b : Bool) : (s.withUndef b).nmiLatched = s.nmiLatched := rfl
@[simp] theorem State.withUndef_stopRequested (b : Bool) : (s.withUndef b).stopRequested = s.stopRequested := rfl
@[simp] theorem State.withUndef_undefSeen (b : Bool) : (s.withUndef b).undefSeen = b := rfl
@[simp] theorem State.withUndef_log (b : Bool) : (s.withUndef b).log = s.log := rfl
@[simp] theorem State.withUndef_mem (b : Bool) : (s.withUndef b).mem = s.mem := rfl
@[simp] theorem State.withUndef_params (b : Bool) : (s.withUndef b).params = s.params := rfl
@[simp] theorem State.withUndef_intr (b : Bool) : (s.withUndef b).intr = s.intr := rfl
@[simp] theorem State.withUndef_draws (b : Bool) : (s.withUndef b).draws = s.draws := rfl

/-! ### State.withLog -/

@[simp] theorem State.withLog_regs (l : List Event) : (s.withLog l).regs = s.regs := rfl
@[simp] theorem State.withLog_sregs (l : List Event) : (s.withLog l).sregs = s.sregs := rfl
@[simp] theorem State.withLog_ip (l : List Event) : (s.withLog l).ip = s.ip := rfl
@[simp] theorem State.withLog_flags (l : List Event) : (s.withLog l).flags = s.flags := rfl
@[simp] theorem State.withLog_pq (l : List Event) : (s.withLog l).pq = s.pq := rfl
@[simp] theorem State.withLog_dq (l : List Event) : (s.withLog l).dq = s.dq := rfl
@[simp] theorem State.withLog_halted (l : List Event) : (s.withLog l).halted = s.halted := rfl
@[simp] theorem State.withLog_stepMode (l : List Event) : (s.withLog l).stepMode = s.stepMode := rfl
@[simp] theorem State.withLog_stage (l : List Event) : (s.withLog l).stage = s.stage := rfl
@[simp] theorem State.withLog_nmiLatched (l : List Event) : (s.withLog l).nmiLatched = s.nmiLatched := rfl
@[simp] theorem State.withLog_stopRequested (l : List Event) : (s.withLog l).stopRequested = s.stopRequested := rfl
@[simp] theorem State.withLog_undefSeen (l : List Event) : (s.withLog l).undefSeen = s.undefSeen := rfl
@[simp] theorem State.withLog_log (l : List Event) : (s.withLog l).log = l := rfl
@[simp] theorem State.withLog_mem (l : List Event) : (s.withLog l).mem = s.mem := rfl
@[simp] theorem State.withLog_params (l : List Event) : (s.withLog l).params = s.params := rfl
@[simp] theorem State.withLog_intr (l : List Event) : (s.withLog l).intr = s.intr := rfl
@[simp] theorem State.withLog_draws (l : List Event) : (s.withLog l).draws = s.draws := rfl

/-! ### State.withMem -/

@[simp] theorem State.withMem_regs (m : Memory) : (s.withMem m).regs = s.regs := rfl
@[simp] theorem State.withMem_sregs (m : Memory) : (s.withMem m).sregs = s.sregs := rfl
@[simp] theorem State.withMem_ip (m : Memory) : (s.withMem m).ip = s.ip := rfl
@[simp] theorem State.withMem_flags (m : Memory) : (s.withMem m).flags = s.flags := rfl
@[simp] theorem State.withMem_pq (m : Memory) : (s.withMem m).pq = s.pq := rfl
@[simp] theorem State.withMem_dq (m : Memory) : (s.withMem m).dq = s.dq := rfl
@[simp] theorem State.withMem_halted (m : Memory) : (s.withMem m).halted = s.halted := rfl
@[simp] theorem State.withMem_stepMode (m : Memory) : (s.withMem m).stepMode = s.stepMode := rfl
@[simp] theorem State.withMem_stage (m : Memory) : (s.withMem m).stage = s.stage := rfl
@[simp] theorem State.withMem_nmiLatched (m : Memory) : (s.withMem m).nmiLatched = s.nmiLatched := rfl
@[simp] theorem State.withMem_stopRequested (m : Memory) : (s.withMem m).stopRequested = s.stopRequested := rfl
@[simp] theorem State.withMem_undefSeen (m : Memory) : (s.withMem m).undefSeen = s.undefSeen := rfl
@[simp] theorem State.withMem_log (m : Memory) : (s.withMem m).log = s.log := rfl
@[simp] theorem State.withMem_mem (m : Memory) : (s.withMem m).mem = m := rfl
@[simp] theorem State.withMem_params (m : Memory) : (s.withMem m).params = s.params := rfl
@[simp] theorem State.withMem_intr (m : Memory) : (s.withMem m).intr = s.intr := rfl
@[simp] theorem State.withMem_draws (m : Memory) : (s.withMem m).draws = s.draws := rfl

/-! ### State.withIntr -/

@[simp] theorem State.withIntr_regs (a : Option Byte) : (s.withIntr a).regs = s.regs := rfl
@[simp] theorem State.withIntr_sregs (a : Option Byte) : (s.withIntr a).sregs = s.sregs := rfl
@[simp] theorem State.withIntr_ip (a : Option Byte) : (s.withIntr a).ip = s.ip := rfl
@[simp] theorem State.withIntr_flags (a : Option Byte) : (s.withIntr a).flags = s.flags := rfl
@[simp] theorem State.withIntr_pq (a : Option Byte) : (s.withIntr a).pq = s.pq := rfl
@[simp] theorem State.withIntr_dq (a : Option Byte) : (s.withIntr a).dq = s.dq := rfl
@[simp] theorem State.withIntr_halted (a : Option Byte) : (s.withIntr a).halted = s.halted := rfl
@[simp] theorem State.withIntr_stepMode (a : Option Byte) : (s.withIntr a).stepMode = s.stepMode := rfl
@[simp] theorem State.withIntr_stage (a : Option Byte) : (s.withIntr a).stage = s.stage := rfl
@[simp] theorem State.withIntr_nmiLatched (a : Option Byte) : (s.withIntr a).nmiLatched = s.nmiLatched := rfl
@[simp] theorem State.withIntr_stopRequested (a : Option Byte) : (s.withIntr a).stopRequested = s.stopRequested := rfl
@[simp] theorem State.withIntr_undefSeen (a : Option Byte) : (s.withIntr a).undefSeen = s.undefSeen := rfl
@[simp] theorem State.withIntr_log (a : Option Byte) : (s.withIntr a).log = s.log := rfl
@[simp] theorem State.withIntr_mem (a : Option Byte) : (s.withIntr a).mem = s.mem := rfl
@[simp] theorem State.withIntr_params (a : Option Byte) : (s.withIntr a).params = s.params := rfl
@[simp] theorem State.withIntr_intr (a : Option Byte) : (s.withIntr a).intr = a := rfl
@[simp] theorem State.withIntr_draws (a : Option Byte) : (s.withIntr a).draws = s.draws := rfl

/-! ### State.withDraws -/

@[simp] theorem State.withDraws_regs (k : Nat) : (s.withDraws k).regs = s.regs := rfl
@[simp] theorem State.withDraws_sregs (k : Nat) : (s.withDraws k).sregs = s.sregs := rfl
@[simp] theorem State.withDraws_ip (k : Nat) : (s.withDraws k).ip = s.ip := rfl
@[simp] theorem State.withDraws_flags (k : Nat) : (s.withDraws k).flags = s.flags := rfl
@[simp] theorem State.withDraws_pq (k : Nat) : (s.withDraws k).pq = s.pq := rfl
@[simp] theorem State.withDraws_dq (k : Nat) : (s.withDraws k).dq = s.dq := rfl
@[simp] theorem State.withDraws_halted (k : Nat) : (s.withDraws k).halted = s.halted := rfl
@[simp] theorem State.withDraws_stepMode (k : Nat) : (s.withDraws k).stepMode = s.stepMode := rfl
@[simp] theorem State.withDraws_stage (k : Nat) : (s.withDraws k).stage = s.stage := rfl
@[simp] theorem State.withDraws_nmiLatched (k : Nat) : (s.withDraws k).nmiLatched = s.nmiLatched := rfl
@[simp] theorem State.withDraws_stopRequested (k : Nat) : (s.withDraws k).stopRequested = s.stopRequested := rfl
@[simp] theorem State.withDraws_undefSeen (k : Nat) : (s.withDraws k).undefSeen = s.undefSeen := rfl
@[simp] theorem State.withDraws_log (k : Nat) : (s.withDraws k).log = s.log := rfl
@[simp] theorem State.withDraws_mem (k : Nat) : (s.withDraws k).mem = s.mem := rfl
@[simp] theorem State.withDraws_params (k : Nat) : (s.withDraws k).params = s.params := rfl
@[simp] theorem State.withDraws_intr (k : Nat) : (s.withDraws k).intr = s.intr := rfl
@[simp] theorem State.withDraws_draws (k : Nat) : (s.withDraws k).draws = k := rfl

/-! ### State.record -/

@[simp] theorem State.record_regs (e : Event) : (s.record e).regs = s.regs := rfl
@[simp] theorem State.record_sregs (e : Event) : (s.record e).sregs = s.sregs := rfl
@[simp] theorem State.record_ip (e : Event) : (s.record e).ip = s.ip := rfl
@[simp] theorem State.record_flags (e : Event) : (s.record e).flags = s.flags := rfl
@[simp] theorem State.record_pq (e : Event) : (s.record e).pq = s.pq := rfl
@[simp] theorem State.record_dq (e : Event) : (s.record e).dq = s.dq := rfl
@[simp] theorem State.record_halted (e : Event) : (s.record e).halted = s.halted := rfl
@[simp] theorem State.record_stepMode (e : Event) : (s.record e).stepMode = s.stepMode := rfl
@[simp] theorem State.record_stage (e : Event) : (s.record e).stage = s.stage := rfl
@[simp] theorem State.record_nmiLatched (e : Event) : (s.record e).nmiLatched = s.nmiLatched := rfl
@[simp] theorem State.record_stopRequested (e : Event) : (s.record e).stopRequested = s.stopRequested := rfl
@[simp] theorem State.record_undefSeen (e : Event) : (s.record e).undefSeen = s.undefSeen := rfl
@[simp] theorem State.record_log (e : Event) : (s.record e).log = s.log ++ [e] := rfl
@[simp] theorem State.record_mem (e : Event) : (s.record e).mem = s.mem := rfl
@[simp] theorem State.record_params (e : Event) : (s.record e).params = s.params := rfl
@[simp] theorem State.record_intr (e : Event) : (s.record e).intr = s.intr := rfl
@[simp] theorem State.record_draws (e : Event) : (s.record e).draws = s.draws := rfl

end Sys2Proof.Machine
end

