-- ==== Sys2Proof/Laws/Memory.lean ====
section
/-! SUPPORT. Memory: the canonical form is kept by every operation, and what a read gives after a write. -/

namespace Sys2Proof.Machine

/-! ### The canonical form -/

theorem Memory.wfFrom_cons (lo k : Nat) (v : Byte) (t : Memory) :
    Memory.wfFrom lo ((k, v) :: t) = true ↔
      lo ≤ k ∧ k < Config.memSize ∧ v ≠ Config.unlistedByte ∧ Memory.wfFrom (k + 1) t = true := by
  simp [Memory.wfFrom, and_assoc]

theorem Memory.wfFrom_mono {lo lo' : Nat} {m : Memory} (h : Memory.wfFrom lo m = true) (hl : lo' ≤ lo) :
    Memory.wfFrom lo' m = true := by
  cases m with
  | nil => rfl
  | cons c t =>
    obtain ⟨k, v⟩ := c
    rw [Memory.wfFrom_cons] at h ⊢
    exact ⟨by omega, h.2⟩

theorem Memory.read_below {lo a : Nat} {m : Memory} (h : Memory.wfFrom lo m = true) (ha : a < lo) :
    m.read a = Config.unlistedByte := by
  induction m generalizing lo with
  | nil => rfl
  | cons c t ih =>
    obtain ⟨k, v⟩ := c
    rw [Memory.wfFrom_cons] at h
    have hk : k ≠ a := by omega
    simp only [Memory.read, hk, if_false]
    exact ih h.2.2.2 (by omega)

theorem Memory.wfFrom_write {lo a : Nat} {m : Memory} (v : Byte) (h : Memory.wfFrom lo m = true) (hl : lo ≤ a)
    (ha : a < Config.memSize) : Memory.wfFrom lo (m.write a v) = true := by
  induction m generalizing lo with
  | nil =>
    unfold Memory.write
    split
    · rfl
    · rw [Memory.wfFrom_cons]; exact ⟨hl, ha, ‹_›, rfl⟩
  | cons c t ih =>
    obtain ⟨k, w⟩ := c
    have hc := (Memory.wfFrom_cons lo k w t).1 h
    unfold Memory.write
    split
    · split
      · exact h
      · rw [Memory.wfFrom_cons]
        exact ⟨hl, ha, ‹_›, (Memory.wfFrom_cons _ _ _ _).2 ⟨by omega, hc.2⟩⟩
    · split
      · subst k
        split
        · exact Memory.wfFrom_mono hc.2.2.2 (by omega)
        · exact (Memory.wfFrom_cons _ _ _ _).2 ⟨hc.1, hc.2.1, ‹_›, hc.2.2.2⟩
      · exact (Memory.wfFrom_cons _ _ _ _).2 ⟨hc.1, hc.2.1, hc.2.2.1, ih hc.2.2.2 (by omega)⟩

theorem Memory.read_write_from {lo a : Nat} {m : Memory} (v : Byte) (b : Nat) (h : Memory.wfFrom lo m = true) :
    (m.write a v).read b = if b = a then v else m.read b := by
  induction m generalizing lo with
  | nil =>
    simp only [Memory.write, Memory.read]
    split
    · split
      · simp only [Memory.read]; exact (‹v = _›).symm
      · rfl
    · simp only [Memory.read, eq_comm]
  | cons c t ih =>
    obtain ⟨k, w⟩ := c
    have hc := (Memory.wfFrom_cons lo k w t).1 h
    unfold Memory.write
    split
    · split
      · by_cases hb : b = a
        · subst hb
          have hk : k ≠ b := by omega
          simp only [Memory.read, hk, if_false, if_true]
          rw [Memory.read_below hc.2.2.2 (by omega)]
          exact (‹v = _›).symm
        · simp only [hb, if_false]
      · simp only [Memory.read, eq_comm]
    · split
      · subst k
        split
        · by_cases hb : b = a
          · subst hb
            rw [Memory.read_below hc.2.2.2 (by omega)]
            simp only [if_true]
            exact (‹v = _›).symm
          · have hb' : a ≠ b := fun e => hb e.symm
            simp only [Memory.read, hb, hb', if_false]
        · by_cases hb : b = a
          · simp only [Memory.read, hb, if_true]
          · have hb' : a ≠ b := fun e => hb e.symm
            simp only [Memory.read, hb, hb', if_false]
      · simp only [Memory.read, ih hc.2.2.2]
        by_cases hk : k = b
        · have hb : b ≠ a := by omega
          simp only [hk, if_true, hb, if_false]
        · simp only [hk, if_false]

/-- A write keeps the canonical form. -/
theorem Memory.wf_write {m : Memory} (a : Addr) (v : Byte) (h : m.wf = true) : (m.write a.toNat v).wf = true :=
  Memory.wfFrom_write v h (Nat.zero_le _) a.isLt

/-- A read after a write: the value written at its address, the old byte elsewhere. -/
theorem Memory.read_write {m : Memory} (a b : Nat) (v : Byte) (h : m.wf = true) :
    (m.write a v).read b = if b = a then v else m.read b :=
  Memory.read_write_from v b h

/-- A store keeps the canonical form. -/
theorem Memory.wf_store {m : Memory} (a : Addr) (v : Byte) (h : m.wf = true) : (m.store a v).wf = true := by
  unfold Memory.store
  split
  · exact h
  · exact Memory.wf_write a v h

/-- A read after a store: the old byte in the read-only region. -/
theorem Memory.read_store {m : Memory} (a b : Addr) (v : Byte) (h : m.wf = true) :
    (m.store a v).read b.toNat = if b = a ∧ inRom a = false then v else m.read b.toNat := by
  unfold Memory.store
  split
  · simp [*]
  · rw [Memory.read_write _ _ _ h]
    simp [*, ← BitVec.toNat_eq]

/-- Loading an image keeps the canonical form. -/
theorem Memory.wf_load {m : Memory} (base : Addr) (image : List Byte) (h : m.wf = true) :
    (m.load base image).wf = true := by
  induction image generalizing m base with
  | nil => exact h
  | cons b t ih => exact ih _ (Memory.wf_write base b h)

/-- A read after loading an image that fits below 2^20: its byte at each address it covers, the old byte elsewhere
(70_reset_and_hazards.md R531). -/
theorem Memory.read_load {m : Memory} (base a : Addr) (image : List Byte) (h : m.wf = true)
    (fit : base.toNat + image.length ≤ 2 ^ 20) :
    (m.load base image).read a.toNat =
      if base.toNat ≤ a.toNat then image.getD (a.toNat - base.toNat) (m.read a.toNat) else m.read a.toNat := by
  induction image generalizing m base with
  | nil => simp [Memory.load]
  | cons b t ih =>
    rw [List.length_cons] at fit
    cases t with
    | nil =>
      rw [Memory.load, Memory.load, Memory.read_write _ _ _ h]
      rcases Nat.lt_trichotomy a.toNat base.toNat with hlt | heq | hgt
      · rw [if_neg (by omega), if_neg (by omega)]
      · rw [if_pos heq, if_pos (by omega), heq, Nat.sub_self]; rfl
      · rw [if_neg (by omega), if_pos (by omega),
          List.getD_eq_default _ _ (by simp only [List.length_cons, List.length_nil]; omega)]
    | cons c u =>
      rw [List.length_cons] at fit
      have e : (base + 1).toNat = base.toNat + 1 := by
        rw [BitVec.toNat_add]
        exact Nat.mod_eq_of_lt (by show base.toNat + 1 < 2 ^ 20; omega)
      rw [Memory.load, ih _ (Memory.wf_write base b h) (by rw [e, List.length_cons]; omega), e,
        Memory.read_write _ _ _ h]
      rcases Nat.lt_trichotomy a.toNat base.toNat with hlt | heq | hgt
      · rw [if_neg (by omega), if_neg (by omega), if_neg (by omega)]
      · rw [if_neg (by omega), if_pos heq, if_pos (by omega), heq, Nat.sub_self]; rfl
      · rw [if_pos (by omega), if_neg (by omega), if_pos (by omega),
          show a.toNat - base.toNat = a.toNat - (base.toNat + 1) + 1 by omega, List.getD_cons_succ]

/-- Loading code keeps the canonical form. -/
theorem Memory.wf_loadCode {m : Memory} (seg off : Word) (bs : List Byte) (h : m.wf = true) :
    (loadCode seg off bs m).wf = true := by
  induction bs generalizing m off with
  | nil => exact h
  | cons b t ih => exact ih _ (Memory.wf_write _ b h)

/-- The memory of the reset state is in canonical form. -/
theorem State.reset_mem_wf : State.reset.mem.wf = true := rfl

/-- Equal reads, equal memories: the form is canonical. -/
theorem Memory.ext_from {lo : Nat} {m m' : Memory} (h : Memory.wfFrom lo m = true) (h' : Memory.wfFrom lo m' = true)
    (e : ∀ a, m.read a = m'.read a) : m = m' := by
  induction m generalizing lo m' with
  | nil =>
    cases m' with
    | nil => rfl
    | cons c t =>
      obtain ⟨k, v⟩ := c
      have := e k
      simp only [Memory.read, if_true] at this
      exact absurd this.symm ((Memory.wfFrom_cons _ _ _ _).1 h').2.2.1
  | cons c t ih =>
    obtain ⟨k, v⟩ := c
    have hc := (Memory.wfFrom_cons _ _ _ _).1 h
    cases m' with
    | nil =>
      have := e k
      simp only [Memory.read, if_true] at this
      exact absurd this hc.2.2.1
    | cons c' t' =>
      obtain ⟨k', v'⟩ := c'
      have hc' := (Memory.wfFrom_cons _ _ _ _).1 h'
      have hkk : k = k' := by
        rcases Nat.lt_trichotomy k k' with hlt | heq | hgt
        · have := e k
          rw [Memory.read, if_pos rfl, Memory.read, if_neg (by omega)] at this
          rw [Memory.read_below hc'.2.2.2 (by omega)] at this
          exact absurd this hc.2.2.1
        · exact heq
        · have := e k'
          rw [Memory.read, if_neg (by omega), Memory.read, if_pos rfl] at this
          rw [Memory.read_below hc.2.2.2 (by omega)] at this
          exact absurd this.symm hc'.2.2.1
      subst hkk
      have hv : v = v' := by simpa [Memory.read] using e k
      subst hv
      congr 1
      refine ih hc.2.2.2 hc'.2.2.2 fun a => ?_
      by_cases ha : k = a
      · rw [Memory.read_below hc.2.2.2 (by omega), Memory.read_below hc'.2.2.2 (by omega)]
      · simpa [Memory.read, ha] using e a

/-- Equal reads, equal memories: the form is canonical. -/
theorem Memory.ext_read {m m' : Memory} (h : m.wf = true) (h' : m'.wf = true) (e : ∀ a, m.read a = m'.read a) :
    m = m' :=
  Memory.ext_from h h' e

end Sys2Proof.Machine
end

