-- ==== Sys2Proof/Laws/Ops.lean ====
section
/-! SUPPORT. Each field after each named operation that leaves it or gives it a plain value. -/

namespace Sys2Proof.Machine

variable (s : State)

/-! ### State.setReg16 -/

@[simp] theorem State.setReg16_regs (i : Reg16) (v : Word) : (s.setReg16 i v).regs = s.regs.set i v := rfl
@[simp] theorem State.setReg16_sregs (i : Reg16) (v : Word) : (s.setReg16 i v).sregs = s.sregs := rfl
@[simp] theorem State.setReg16_ip (i : Reg16) (v : Word) : (s.setReg16 i v).ip = s.ip := rfl
@[simp] theorem State.setReg16_flags (i : Reg16) (v : Word) : (s.setReg16 i v).flags = s.flags := rfl
@[simp] theorem State.setReg16_pq (i : Reg16) (v : Word) : (s.setReg16 i v).pq = s.pq := rfl
@[simp] theorem State.setReg16_dq (i : Reg16) (v : Word) : (s.setReg16 i v).dq = s.dq := rfl
@[simp] theorem State.setReg16_halted (i : Reg16) (v : Word) : (s.setReg16 i v).halted = s.halted := rfl
@[simp] theorem State.setReg16_stepMode (i : Reg16) (v : Word) : (s.setReg16 i v).stepMode = s.stepMode := rfl
@[simp] theorem State.setReg16_stage (i : Reg16) (v : Word) : (s.setReg16 i v).stage = s.stage := rfl
@[simp] theorem State.setReg16_nmiLatched (i : Reg16) (v : Word) : (s.setReg16 i v).nmiLatched = s.nmiLatched := rfl
@[simp] theorem State.setReg16_stopRequested (i : Reg16) (v : Word) : (s.setReg16 i v).stopRequested = s.stopRequested :=
    rfl
@[simp] theorem State.setReg16_undefSeen (i : Reg16) (v : Word) : (s.setReg16 i v).undefSeen = s.undefSeen := rfl
@[simp] theorem State.setReg16_log (i : Reg16) (v : Word) : (s.setReg16 i v).log = s.log := rfl
@[simp] theorem State.setReg16_mem (i : Reg16) (v : Word) : (s.setReg16 i v).mem = s.mem := rfl
@[simp] theorem State.setReg16_params (i : Reg16) (v : Word) : (s.setReg16 i v).params = s.params := rfl
@[simp] theorem State.setReg16_intr (i : Reg16) (v : Word) : (s.setReg16 i v).intr = s.intr := rfl
@[simp] theorem State.setReg16_draws (i : Reg16) (v : Word) : (s.setReg16 i v).draws = s.draws := rfl

/-! ### State.setReg8 -/

@[simp] theorem State.setReg8_sregs (j : Reg8) (v : Byte) : (s.setReg8 j v).sregs = s.sregs := rfl
@[simp] theorem State.setReg8_ip (j : Reg8) (v : Byte) : (s.setReg8 j v).ip = s.ip := rfl
@[simp] theorem State.setReg8_flags (j : Reg8) (v : Byte) : (s.setReg8 j v).flags = s.flags := rfl
@[simp] theorem State.setReg8_pq (j : Reg8) (v : Byte) : (s.setReg8 j v).pq = s.pq := rfl
@[simp] theorem State.setReg8_dq (j : Reg8) (v : Byte) : (s.setReg8 j v).dq = s.dq := rfl
@[simp] theorem State.setReg8_halted (j : Reg8) (v : Byte) : (s.setReg8 j v).halted = s.halted := rfl
@[simp] theorem State.setReg8_stepMode (j : Reg8) (v : Byte) : (s.setReg8 j v).stepMode = s.stepMode := rfl
@[simp] theorem State.setReg8_stage (j : Reg8) (v : Byte) : (s.setReg8 j v).stage = s.stage := rfl
@[simp] theorem State.setReg8_nmiLatched (j : Reg8) (v : Byte) : (s.setReg8 j v).nmiLatched = s.nmiLatched := rfl
@[simp] theorem State.setReg8_stopRequested (j : Reg8) (v : Byte) : (s.setReg8 j v).stopRequested = s.stopRequested :=
    rfl
@[simp] theorem State.setReg8_undefSeen (j : Reg8) (v : Byte) : (s.setReg8 j v).undefSeen = s.undefSeen := rfl
@[simp] theorem State.setReg8_log (j : Reg8) (v : Byte) : (s.setReg8 j v).log = s.log := rfl
@[simp] theorem State.setReg8_mem (j : Reg8) (v : Byte) : (s.setReg8 j v).mem = s.mem := rfl
@[simp] theorem State.setReg8_params (j : Reg8) (v : Byte) : (s.setReg8 j v).params = s.params := rfl
@[simp] theorem State.setReg8_intr (j : Reg8) (v : Byte) : (s.setReg8 j v).intr = s.intr := rfl
@[simp] theorem State.setReg8_draws (j : Reg8) (v : Byte) : (s.setReg8 j v).draws = s.draws := rfl

/-! ### State.setSreg -/

@[simp] theorem State.setSreg_regs (i : SReg) (v : Word) : (s.setSreg i v).regs = s.regs := rfl
@[simp] theorem State.setSreg_sregs (i : SReg) (v : Word) : (s.setSreg i v).sregs = s.sregs.set i v := rfl
@[simp] theorem State.setSreg_ip (i : SReg) (v : Word) : (s.setSreg i v).ip = s.ip := rfl
@[simp] theorem State.setSreg_flags (i : SReg) (v : Word) : (s.setSreg i v).flags = s.flags := rfl
@[simp] theorem State.setSreg_pq (i : SReg) (v : Word) : (s.setSreg i v).pq = s.pq := rfl
@[simp] theorem State.setSreg_dq (i : SReg) (v : Word) : (s.setSreg i v).dq = s.dq := rfl
@[simp] theorem State.setSreg_halted (i : SReg) (v : Word) : (s.setSreg i v).halted = s.halted := rfl
@[simp] theorem State.setSreg_stepMode (i : SReg) (v : Word) : (s.setSreg i v).stepMode = s.stepMode := rfl
@[simp] theorem State.setSreg_stage (i : SReg) (v : Word) : (s.setSreg i v).stage = s.stage := rfl
@[simp] theorem State.setSreg_nmiLatched (i : SReg) (v : Word) : (s.setSreg i v).nmiLatched = s.nmiLatched := rfl
@[simp] theorem State.setSreg_stopRequested (i : SReg) (v : Word) : (s.setSreg i v).stopRequested = s.stopRequested :=
    rfl
@[simp] theorem State.setSreg_undefSeen (i : SReg) (v : Word) : (s.setSreg i v).undefSeen = s.undefSeen := rfl
@[simp] theorem State.setSreg_log (i : SReg) (v : Word) : (s.setSreg i v).log = s.log := rfl
@[simp] theorem State.setSreg_mem (i : SReg) (v : Word) : (s.setSreg i v).mem = s.mem := rfl
@[simp] theorem State.setSreg_params (i : SReg) (v : Word) : (s.setSreg i v).params = s.params := rfl
@[simp] theorem State.setSreg_intr (i : SReg) (v : Word) : (s.setSreg i v).intr = s.intr := rfl
@[simp] theorem State.setSreg_draws (i : SReg) (v : Word) : (s.setSreg i v).draws = s.draws := rfl

/-! ### State.write8 -/

@[simp] theorem State.write8_regs (a : Addr) (v : Byte) : (s.write8 a v).regs = s.regs := rfl
@[simp] theorem State.write8_sregs (a : Addr) (v : Byte) : (s.write8 a v).sregs = s.sregs := rfl
@[simp] theorem State.write8_ip (a : Addr) (v : Byte) : (s.write8 a v).ip = s.ip := rfl
@[simp] theorem State.write8_flags (a : Addr) (v : Byte) : (s.write8 a v).flags = s.flags := rfl
@[simp] theorem State.write8_pq (a : Addr) (v : Byte) : (s.write8 a v).pq = s.pq := rfl
@[simp] theorem State.write8_dq (a : Addr) (v : Byte) : (s.write8 a v).dq = s.dq := rfl
@[simp] theorem State.write8_halted (a : Addr) (v : Byte) : (s.write8 a v).halted = s.halted := rfl
@[simp] theorem State.write8_stepMode (a : Addr) (v : Byte) : (s.write8 a v).stepMode = s.stepMode := rfl
@[simp] theorem State.write8_stage (a : Addr) (v : Byte) : (s.write8 a v).stage = s.stage := rfl
@[simp] theorem State.write8_nmiLatched (a : Addr) (v : Byte) : (s.write8 a v).nmiLatched = s.nmiLatched := rfl
@[simp] theorem State.write8_stopRequested (a : Addr) (v : Byte) : (s.write8 a v).stopRequested = s.stopRequested :=
    rfl
@[simp] theorem State.write8_undefSeen (a : Addr) (v : Byte) : (s.write8 a v).undefSeen = s.undefSeen := rfl
@[simp] theorem State.write8_log (a : Addr) (v : Byte) : (s.write8 a v).log = s.log ++ [.memWrite a (.b v) (inRom a)] :=
    rfl
@[simp] theorem State.write8_mem (a : Addr) (v : Byte) : (s.write8 a v).mem = s.mem.store a v := rfl
@[simp] theorem State.write8_params (a : Addr) (v : Byte) : (s.write8 a v).params = s.params := rfl
@[simp] theorem State.write8_intr (a : Addr) (v : Byte) : (s.write8 a v).intr = s.intr := rfl
@[simp] theorem State.write8_draws (a : Addr) (v : Byte) : (s.write8 a v).draws = s.draws := rfl

/-! ### State.write16 -/

@[simp] theorem State.write16_regs (a : Addr) (v : Word) : (s.write16 a v).regs = s.regs := rfl
@[simp] theorem State.write16_sregs (a : Addr) (v : Word) : (s.write16 a v).sregs = s.sregs := rfl
@[simp] theorem State.write16_ip (a : Addr) (v : Word) : (s.write16 a v).ip = s.ip := rfl
@[simp] theorem State.write16_flags (a : Addr) (v : Word) : (s.write16 a v).flags = s.flags := rfl
@[simp] theorem State.write16_pq (a : Addr) (v : Word) : (s.write16 a v).pq = s.pq := rfl
@[simp] theorem State.write16_dq (a : Addr) (v : Word) : (s.write16 a v).dq = s.dq := rfl
@[simp] theorem State.write16_halted (a : Addr) (v : Word) : (s.write16 a v).halted = s.halted := rfl
@[simp] theorem State.write16_stepMode (a : Addr) (v : Word) : (s.write16 a v).stepMode = s.stepMode := rfl
@[simp] theorem State.write16_stage (a : Addr) (v : Word) : (s.write16 a v).stage = s.stage := rfl
@[simp] theorem State.write16_nmiLatched (a : Addr) (v : Word) : (s.write16 a v).nmiLatched = s.nmiLatched := rfl
@[simp] theorem State.write16_stopRequested (a : Addr) (v : Word) : (s.write16 a v).stopRequested = s.stopRequested :=
    rfl
@[simp] theorem State.write16_undefSeen (a : Addr) (v : Word) : (s.write16 a v).undefSeen = s.undefSeen := rfl
@[simp] theorem State.write16_log (a : Addr) (v : Word) : (s.write16 a v).log = s.log ++ [.memWrite a (.w v) (inRom a || inRom (a + 1))] :=
    rfl
@[simp] theorem State.write16_mem (a : Addr) (v : Word) : (s.write16 a v).mem = (s.mem.store a (loByte v)).store (a + 1) (hiByte v) :=
    rfl
@[simp] theorem State.write16_params (a : Addr) (v : Word) : (s.write16 a v).params = s.params := rfl
@[simp] theorem State.write16_intr (a : Addr) (v : Word) : (s.write16 a v).intr = s.intr := rfl
@[simp] theorem State.write16_draws (a : Addr) (v : Word) : (s.write16 a v).draws = s.draws := rfl

/-! ### State.push16 -/

@[simp] theorem State.push16_regs (v : Word) : (s.push16 v).regs = s.regs.set .sp (s.reg16 .sp - 2) := rfl
@[simp] theorem State.push16_sregs (v : Word) : (s.push16 v).sregs = s.sregs := rfl
@[simp] theorem State.push16_ip (v : Word) : (s.push16 v).ip = s.ip := rfl
@[simp] theorem State.push16_flags (v : Word) : (s.push16 v).flags = s.flags := rfl
@[simp] theorem State.push16_pq (v : Word) : (s.push16 v).pq = s.pq := rfl
@[simp] theorem State.push16_dq (v : Word) : (s.push16 v).dq = s.dq := rfl
@[simp] theorem State.push16_halted (v : Word) : (s.push16 v).halted = s.halted := rfl
@[simp] theorem State.push16_stepMode (v : Word) : (s.push16 v).stepMode = s.stepMode := rfl
@[simp] theorem State.push16_stage (v : Word) : (s.push16 v).stage = s.stage := rfl
@[simp] theorem State.push16_nmiLatched (v : Word) : (s.push16 v).nmiLatched = s.nmiLatched := rfl
@[simp] theorem State.push16_stopRequested (v : Word) : (s.push16 v).stopRequested = s.stopRequested := rfl
@[simp] theorem State.push16_undefSeen (v : Word) : (s.push16 v).undefSeen = s.undefSeen := rfl
@[simp] theorem State.push16_params (v : Word) : (s.push16 v).params = s.params := rfl
@[simp] theorem State.push16_intr (v : Word) : (s.push16 v).intr = s.intr := rfl
@[simp] theorem State.push16_draws (v : Word) : (s.push16 v).draws = s.draws := rfl

/-! ### State.drop16 -/

@[simp] theorem State.drop16_regs : s.drop16.regs = s.regs.set .sp (s.reg16 .sp + 2) := rfl
@[simp] theorem State.drop16_sregs : s.drop16.sregs = s.sregs := rfl
@[simp] theorem State.drop16_ip : s.drop16.ip = s.ip := rfl
@[simp] theorem State.drop16_flags : s.drop16.flags = s.flags := rfl
@[simp] theorem State.drop16_pq : s.drop16.pq = s.pq := rfl
@[simp] theorem State.drop16_dq : s.drop16.dq = s.dq := rfl
@[simp] theorem State.drop16_halted : s.drop16.halted = s.halted := rfl
@[simp] theorem State.drop16_stepMode : s.drop16.stepMode = s.stepMode := rfl
@[simp] theorem State.drop16_stage : s.drop16.stage = s.stage := rfl
@[simp] theorem State.drop16_nmiLatched : s.drop16.nmiLatched = s.nmiLatched := rfl
@[simp] theorem State.drop16_stopRequested : s.drop16.stopRequested = s.stopRequested := rfl
@[simp] theorem State.drop16_undefSeen : s.drop16.undefSeen = s.undefSeen := rfl
@[simp] theorem State.drop16_log : s.drop16.log = s.log := rfl
@[simp] theorem State.drop16_mem : s.drop16.mem = s.mem := rfl
@[simp] theorem State.drop16_params : s.drop16.params = s.params := rfl
@[simp] theorem State.drop16_intr : s.drop16.intr = s.intr := rfl
@[simp] theorem State.drop16_draws : s.drop16.draws = s.draws := rfl

/-! ### State.afterPortIn -/

@[simp] theorem State.afterPortIn_regs (port : Word) (v : Datum) : (s.afterPortIn port v).regs = s.regs := rfl
@[simp] theorem State.afterPortIn_sregs (port : Word) (v : Datum) : (s.afterPortIn port v).sregs = s.sregs := rfl
@[simp] theorem State.afterPortIn_ip (port : Word) (v : Datum) : (s.afterPortIn port v).ip = s.ip := rfl
@[simp] theorem State.afterPortIn_flags (port : Word) (v : Datum) : (s.afterPortIn port v).flags = s.flags := rfl
@[simp] theorem State.afterPortIn_pq (port : Word) (v : Datum) : (s.afterPortIn port v).pq = s.pq := rfl
@[simp] theorem State.afterPortIn_dq (port : Word) (v : Datum) : (s.afterPortIn port v).dq = s.dq := rfl
@[simp] theorem State.afterPortIn_halted (port : Word) (v : Datum) : (s.afterPortIn port v).halted = s.halted := rfl
@[simp] theorem State.afterPortIn_stepMode (port : Word) (v : Datum) : (s.afterPortIn port v).stepMode = s.stepMode :=
    rfl
@[simp] theorem State.afterPortIn_stage (port : Word) (v : Datum) : (s.afterPortIn port v).stage = s.stage := rfl
@[simp] theorem State.afterPortIn_nmiLatched (port : Word) (v : Datum) : (s.afterPortIn port v).nmiLatched = s.nmiLatched :=
    rfl
@[simp] theorem State.afterPortIn_stopRequested (port : Word) (v : Datum) : (s.afterPortIn port v).stopRequested = s.stopRequested :=
    rfl
@[simp] theorem State.afterPortIn_undefSeen (port : Word) (v : Datum) : (s.afterPortIn port v).undefSeen = s.undefSeen :=
    rfl
@[simp] theorem State.afterPortIn_log (port : Word) (v : Datum) : (s.afterPortIn port v).log = s.log ++ [.portIn port v] :=
    rfl
@[simp] theorem State.afterPortIn_mem (port : Word) (v : Datum) : (s.afterPortIn port v).mem = s.mem := rfl
@[simp] theorem State.afterPortIn_params (port : Word) (v : Datum) : (s.afterPortIn port v).params = s.params := rfl
@[simp] theorem State.afterPortIn_intr (port : Word) (v : Datum) : (s.afterPortIn port v).intr = s.intr := rfl
@[simp] theorem State.afterPortIn_draws (port : Word) (v : Datum) : (s.afterPortIn port v).draws = s.draws + 1 := rfl

/-! ### State.portOut -/

@[simp] theorem State.portOut_regs (port : Word) (v : Datum) : (s.portOut port v).regs = s.regs := rfl
@[simp] theorem State.portOut_sregs (port : Word) (v : Datum) : (s.portOut port v).sregs = s.sregs := rfl
@[simp] theorem State.portOut_ip (port : Word) (v : Datum) : (s.portOut port v).ip = s.ip := rfl
@[simp] theorem State.portOut_flags (port : Word) (v : Datum) : (s.portOut port v).flags = s.flags := rfl
@[simp] theorem State.portOut_pq (port : Word) (v : Datum) : (s.portOut port v).pq = s.pq := rfl
@[simp] theorem State.portOut_dq (port : Word) (v : Datum) : (s.portOut port v).dq = s.dq := rfl
@[simp] theorem State.portOut_halted (port : Word) (v : Datum) : (s.portOut port v).halted = s.halted := rfl
@[simp] theorem State.portOut_stepMode (port : Word) (v : Datum) : (s.portOut port v).stepMode = s.stepMode := rfl
@[simp] theorem State.portOut_stage (port : Word) (v : Datum) : (s.portOut port v).stage = s.stage := rfl
@[simp] theorem State.portOut_nmiLatched (port : Word) (v : Datum) : (s.portOut port v).nmiLatched = s.nmiLatched :=
    rfl
@[simp] theorem State.portOut_stopRequested (port : Word) (v : Datum) : (s.portOut port v).stopRequested = s.stopRequested :=
    rfl
@[simp] theorem State.portOut_undefSeen (port : Word) (v : Datum) : (s.portOut port v).undefSeen = s.undefSeen := rfl
@[simp] theorem State.portOut_log (port : Word) (v : Datum) : (s.portOut port v).log = s.log ++ [.portOut port v] :=
    rfl
@[simp] theorem State.portOut_mem (port : Word) (v : Datum) : (s.portOut port v).mem = s.mem := rfl
@[simp] theorem State.portOut_params (port : Word) (v : Datum) : (s.portOut port v).params = s.params := rfl
@[simp] theorem State.portOut_intr (port : Word) (v : Datum) : (s.portOut port v).intr = s.intr := rfl
@[simp] theorem State.portOut_draws (port : Word) (v : Datum) : (s.portOut port v).draws = s.draws := rfl

/-! ### State.interruptPushes -/

@[simp] theorem State.interruptPushes_sregs : s.interruptPushes.sregs = s.sregs := rfl
@[simp] theorem State.interruptPushes_ip : s.interruptPushes.ip = s.ip := rfl
@[simp] theorem State.interruptPushes_pq : s.interruptPushes.pq = s.pq := rfl
@[simp] theorem State.interruptPushes_dq : s.interruptPushes.dq = s.dq := rfl
@[simp] theorem State.interruptPushes_halted : s.interruptPushes.halted = s.halted := rfl
@[simp] theorem State.interruptPushes_stepMode : s.interruptPushes.stepMode = s.stepMode := rfl
@[simp] theorem State.interruptPushes_stage : s.interruptPushes.stage = s.stage := rfl
@[simp] theorem State.interruptPushes_nmiLatched : s.interruptPushes.nmiLatched = s.nmiLatched := rfl
@[simp] theorem State.interruptPushes_stopRequested : s.interruptPushes.stopRequested = s.stopRequested := rfl
@[simp] theorem State.interruptPushes_undefSeen : s.interruptPushes.undefSeen = s.undefSeen := rfl
@[simp] theorem State.interruptPushes_params : s.interruptPushes.params = s.params := rfl
@[simp] theorem State.interruptPushes_intr : s.interruptPushes.intr = s.intr := rfl
@[simp] theorem State.interruptPushes_draws : s.interruptPushes.draws = s.draws := rfl

/-! ### State.interrupt -/

@[simp] theorem State.interrupt_pq (n : Byte) (src : IntSource) : (s.interrupt n src).pq = s.pq := rfl
@[simp] theorem State.interrupt_dq (n : Byte) (src : IntSource) : (s.interrupt n src).dq = s.dq := rfl
@[simp] theorem State.interrupt_halted (n : Byte) (src : IntSource) : (s.interrupt n src).halted = false := rfl
@[simp] theorem State.interrupt_stepMode (n : Byte) (src : IntSource) : (s.interrupt n src).stepMode = s.stepMode :=
    rfl
@[simp] theorem State.interrupt_stage (n : Byte) (src : IntSource) : (s.interrupt n src).stage = s.stage := rfl
@[simp] theorem State.interrupt_nmiLatched (n : Byte) (src : IntSource) : (s.interrupt n src).nmiLatched = s.nmiLatched :=
    rfl
@[simp] theorem State.interrupt_stopRequested (n : Byte) (src : IntSource) : (s.interrupt n src).stopRequested = s.stopRequested :=
    rfl
@[simp] theorem State.interrupt_undefSeen (n : Byte) (src : IntSource) : (s.interrupt n src).undefSeen = s.undefSeen :=
    rfl
@[simp] theorem State.interrupt_params (n : Byte) (src : IntSource) : (s.interrupt n src).params = s.params := rfl
@[simp] theorem State.interrupt_intr (n : Byte) (src : IntSource) : (s.interrupt n src).intr = s.intr := rfl
@[simp] theorem State.interrupt_draws (n : Byte) (src : IntSource) : (s.interrupt n src).draws = s.draws := rfl

/-! ### State.interruptReturn -/

@[simp] theorem State.interruptReturn_pq : s.interruptReturn.pq = s.pq := rfl
@[simp] theorem State.interruptReturn_dq : s.interruptReturn.dq = s.dq := rfl
@[simp] theorem State.interruptReturn_halted : s.interruptReturn.halted = s.halted := rfl
@[simp] theorem State.interruptReturn_stepMode : s.interruptReturn.stepMode = s.stepMode := rfl
@[simp] theorem State.interruptReturn_stage : s.interruptReturn.stage = s.stage := rfl
@[simp] theorem State.interruptReturn_nmiLatched : s.interruptReturn.nmiLatched = s.nmiLatched := rfl
@[simp] theorem State.interruptReturn_stopRequested : s.interruptReturn.stopRequested = s.stopRequested := rfl
@[simp] theorem State.interruptReturn_undefSeen : s.interruptReturn.undefSeen = s.undefSeen := rfl
@[simp] theorem State.interruptReturn_log : s.interruptReturn.log = s.log := rfl
@[simp] theorem State.interruptReturn_mem : s.interruptReturn.mem = s.mem := rfl
@[simp] theorem State.interruptReturn_params : s.interruptReturn.params = s.params := rfl
@[simp] theorem State.interruptReturn_intr : s.interruptReturn.intr = s.intr := rfl
@[simp] theorem State.interruptReturn_draws : s.interruptReturn.draws = s.draws := rfl

/-! ### State.pqReset -/

@[simp] theorem State.pqReset_regs : s.pqReset.regs = s.regs := rfl
@[simp] theorem State.pqReset_sregs : s.pqReset.sregs = s.sregs := rfl
@[simp] theorem State.pqReset_ip : s.pqReset.ip = s.ip := rfl
@[simp] theorem State.pqReset_flags : s.pqReset.flags = s.flags := rfl
@[simp] theorem State.pqReset_pq : s.pqReset.pq = [] := rfl
@[simp] theorem State.pqReset_dq : s.pqReset.dq = s.dq := rfl
@[simp] theorem State.pqReset_halted : s.pqReset.halted = s.halted := rfl
@[simp] theorem State.pqReset_stepMode : s.pqReset.stepMode = s.stepMode := rfl
@[simp] theorem State.pqReset_stage : s.pqReset.stage = s.stage := rfl
@[simp] theorem State.pqReset_nmiLatched : s.pqReset.nmiLatched = s.nmiLatched := rfl
@[simp] theorem State.pqReset_stopRequested : s.pqReset.stopRequested = s.stopRequested := rfl
@[simp] theorem State.pqReset_undefSeen : s.pqReset.undefSeen = s.undefSeen := rfl
@[simp] theorem State.pqReset_log : s.pqReset.log = s.log := rfl
@[simp] theorem State.pqReset_mem : s.pqReset.mem = s.mem := rfl
@[simp] theorem State.pqReset_params : s.pqReset.params = s.params := rfl
@[simp] theorem State.pqReset_intr : s.pqReset.intr = s.intr := rfl
@[simp] theorem State.pqReset_draws : s.pqReset.draws = s.draws := rfl

end Sys2Proof.Machine
end

