-- ==== Sys2Proof/Laws/Registers.lean ====
section
/-! SUPPORT. Registers, their byte halves, memory bytes and the stack: what a read gives after each write. -/

namespace Sys2Proof.Machine

/-! ### Words and bytes -/

theorem wordOf_bit (lo hi : Byte) (i : Nat) :
    (wordOf lo hi).getLsbD i = if i < 8 then lo.getLsbD i else hi.getLsbD (i - 8) :=
  (BitVec.getLsbD_append (x := hi) (y := lo)).trans (by cases decide (i < 8) <;> simp)

theorem loByte_bit (v : Word) (i : Nat) : (loByte v).getLsbD i = (decide (i < 8) && v.getLsbD i) := by
  simp [loByte, BitVec.getLsbD_extractLsb']

theorem hiByte_bit (v : Word) (i : Nat) : (hiByte v).getLsbD i = (decide (i < 8) && v.getLsbD (8 + i)) := by
  simp [hiByte, BitVec.getLsbD_extractLsb']

@[simp] theorem loByte_wordOf (lo hi : Byte) : loByte (wordOf lo hi) = lo := by
  apply BitVec.eq_of_getLsbD_eq; intro i h
  rw [loByte_bit, wordOf_bit]; simp [h]

@[simp] theorem hiByte_wordOf (lo hi : Byte) : hiByte (wordOf lo hi) = hi := by
  apply BitVec.eq_of_getLsbD_eq; intro i h
  rw [hiByte_bit, wordOf_bit]; simp [h]

@[simp] theorem wordOf_halves (v : Word) : wordOf (loByte v) (hiByte v) = v := by
  apply BitVec.eq_of_getLsbD_eq; intro i h
  rw [wordOf_bit, loByte_bit, hiByte_bit]
  by_cases hi : i < 8
  · simp [hi]
  · have h1 : 8 + (i - 8) = i := by omega
    have h2 : i - 8 < 8 := by omega
    simp [hi, h1, h2]

/-! ### General and segment registers -/

@[simp] theorem Regs.get_set (r : Regs) (i j : Reg16) (v : Word) :
    (r.set i v).get j = if j = i then v else r.get j := by
  cases i <;> cases j <;> rfl

@[simp] theorem SRegs.get_set (r : SRegs) (i j : SReg) (v : Word) :
    (r.set i v).get j = if j = i then v else r.get j := by
  cases i <;> cases j <;> rfl

/-- Registers with equal reads are equal. -/
theorem Regs.ext_get {r t : Regs} (h : ∀ i, r.get i = t.get i) : r = t := by
  cases r; cases t
  have h0 := h .ax; have h1 := h .cx; have h2 := h .dx; have h3 := h .bx
  have h4 := h .sp; have h5 := h .bp; have h6 := h .si; have h7 := h .di
  simp only [Regs.get] at *
  simp [*]

theorem State.setReg16_reg16 (s : State) (i j : Reg16) (v : Word) :
    (s.setReg16 i v).reg16 j = if j = i then v else s.reg16 j := by
  simp [State.reg16]

theorem State.setSreg_sreg (s : State) (i j : SReg) (v : Word) :
    (s.setSreg i v).sreg j = if j = i then v else s.sreg j := by
  simp [State.sreg]

/-- A byte register after a byte write: only the named half changes (10_state.md R32, R33). -/
theorem State.setReg8_reg8 (s : State) (i j : Reg8) (v : Byte) :
    (s.setReg8 i v).reg8 j = if j = i then v else s.reg8 j := by
  cases i <;> cases j <;> simp [State.setReg8, State.reg8, State.setReg16_reg16, Reg8.parent, Reg8.isHigh]

/-- A word register after a byte write of another register's half. -/
theorem State.setReg8_reg16 (s : State) (i : Reg8) (r : Reg16) (v : Byte) (h : r ≠ Reg8.parent i) :
    (s.setReg8 i v).reg16 r = s.reg16 r := by
  simp [State.setReg8, State.setReg16_reg16, h]

/-! ### Memory bytes -/

theorem State.write8_read8 (s : State) (a b : Addr) (v : Byte) (h : s.mem.wf = true) :
    (s.write8 a v).read8 b = if b = a ∧ inRom a = false then v else s.read8 b := by
  simp [State.read8, Memory.read_store _ _ _ h]

theorem addr_succ_ne (a : Addr) : a + 1 ≠ a := by
  intro h
  have h1 := congrArg BitVec.toNat h
  have h2 := a.isLt
  rw [BitVec.toNat_add] at h1
  have h3 : (1 : Addr).toNat = 1 := rfl
  rw [h3] at h1
  omega

theorem State.write16_read8 (s : State) (a b : Addr) (v : Word) (h : s.mem.wf = true) :
    (s.write16 a v).read8 b =
      if b = a + 1 ∧ inRom (a + 1) = false then hiByte v
      else if b = a ∧ inRom a = false then loByte v else s.read8 b := by
  simp only [State.read8, State.write16_mem]
  rw [Memory.read_store _ _ _ (Memory.wf_store _ _ h), Memory.read_store _ _ _ h]

theorem State.write8_wf (s : State) (a : Addr) (v : Byte) (h : s.mem.wf = true) : (s.write8 a v).mem.wf = true :=
  Memory.wf_store _ _ h

theorem State.write16_wf (s : State) (a : Addr) (v : Word) (h : s.mem.wf = true) : (s.write16 a v).mem.wf = true :=
  Memory.wf_store _ _ (Memory.wf_store _ _ h)

/-! ### The stack -/

@[simp] theorem State.push16_mem (s : State) (v : Word) :
    (s.push16 v).mem = (s.write16 (linear (s.sreg .ss) (s.reg16 .sp - 2)) v).mem := rfl

@[simp] theorem State.push16_log (s : State) (v : Word) :
    (s.push16 v).log = (s.write16 (linear (s.sreg .ss) (s.reg16 .sp - 2)) v).log := rfl

theorem State.push16_wf (s : State) (v : Word) (h : s.mem.wf = true) : (s.push16 v).mem.wf = true :=
  State.write16_wf s _ v h

theorem State.push16_reg16 (s : State) (v : Word) (r : Reg16) :
    (s.push16 v).reg16 r = if r = .sp then s.reg16 .sp - 2 else s.reg16 r := by
  simp [State.reg16]

theorem State.push16_read8 (s : State) (v : Word) (b : Addr) :
    (s.push16 v).read8 b = (s.write16 (linear (s.sreg .ss) (s.reg16 .sp - 2)) v).read8 b := rfl

theorem State.interruptPushes_wf (s : State) (h : s.mem.wf = true) : s.interruptPushes.mem.wf = true :=
  State.push16_wf _ _ (State.push16_wf _ _ (State.push16_wf s _ h))

theorem State.interrupt_wf (s : State) (n : Byte) (src : IntSource) (h : s.mem.wf = true) :
    (s.interrupt n src).mem.wf = true :=
  State.interruptPushes_wf s h

end Sys2Proof.Machine
end

