-- ==== Sys2Proof/Laws/Decode.lean ====
section
/-! SUPPORT. The decoder's parts: the fields of a byte, ModRM forms, immediates and the prefix chain, each read back from
what the encoder writes. -/

namespace Sys2Proof

/-! ### Fields of a byte -/

@[simp] theorem top2_octal (x : Quad) (y z : Oct) : top2 (octal x y z) = x := by
  cases x <;> cases y <;> cases z <;> rfl

@[simp] theorem mid3_octal (x : Quad) (y z : Oct) : mid3 (octal x y z) = y := by
  cases x <;> cases y <;> cases z <;> rfl

@[simp] theorem low3_octal (x : Quad) (y z : Oct) : low3 (octal x y z) = z := by
  cases x <;> cases y <;> cases z <;> rfl

/-- A byte is its three fields. -/
theorem octal_fields (b : Byte) : octal (top2 b) (mid3 b) (low3 b) = b := by
  have h : ∀ i j : Fin 16,
      let c : Byte := BitVec.ofNat 8 (16 * i.val + j.val)
      octal (top2 c) (mid3 c) (low3 c) = c := by decide
  have := h ⟨b.toNat / 16, by omega⟩ ⟨b.toNat % 16, by omega⟩
  rwa [show BitVec.ofNat 8 (16 * (b.toNat / 16) + b.toNat % 16) = b from by
    rw [Nat.div_add_mod]; simp]  at this

/-! ### Register, segment and base codes -/

@[simp] theorem Reg16.ofOct_code (r : Reg16) : Reg16.ofOct r.code = r := by cases r <;> rfl
@[simp] theorem Reg16.code_ofOct (k : Oct) : (Reg16.ofOct k).code = k := by cases k <;> rfl
@[simp] theorem Reg8.ofOct_code (r : Reg8) : Reg8.ofOct r.code = r := by cases r <;> rfl
@[simp] theorem Reg8.code_ofOct (k : Oct) : (Reg8.ofOct k).code = k := by cases k <;> rfl
@[simp] theorem Base.ofOct_code (b : Base) : Base.ofOct b.code = b := by cases b <;> rfl
@[simp] theorem Base.code_ofOct (k : Oct) : (Base.ofOct k).code = k := by cases k <;> rfl
@[simp] theorem SReg.ofOct_code (s : SReg) : SReg.ofOct s.code = some s := by cases s <;> rfl

@[simp] theorem Ea.byteReg_map (e : Ea Reg8) : (e.map Reg8.code).byteReg = e := by
  cases e <;> simp [Ea.map, Ea.byteReg]

@[simp] theorem Ea.wordReg_map (e : Ea Reg16) : (e.map Reg16.code).wordReg = e := by
  cases e <;> simp [Ea.map, Ea.wordReg]

@[simp] theorem Ea.map_wellFormed {ρ σ : Type} (f : ρ → σ) (e : Ea ρ) : (e.map f).wellFormed = e.wellFormed := by
  cases e <;> rfl

/-! ### Immediates -/

@[simp] theorem take8_cons (b : Byte) (t : List Byte) : take8 (b :: t) = some (b, t) := rfl

@[simp] theorem take16_leBytes (v : Word) (t : List Byte) : take16 (leBytes v ++ t) = some (v, t) := by
  simp [leBytes, take16]

@[simp] theorem with8_cons (b : Byte) (t : List Byte) (f : Byte → Instr) : with8 (b :: t) f = some (f b) := rfl

@[simp] theorem with16_leBytes (v : Word) (t : List Byte) (f : Word → Instr) : with16 (leBytes v ++ t) f = some (f v) := by
  simp [with16]

@[simp] theorem withPtr_leBytes (off sel : Word) (t : List Byte) (f : Word → Word → Instr) :
    withPtr (leBytes off ++ (leBytes sel ++ t)) f = some (f off sel) := by
  simp [withPtr]

/-! ### The ModRM byte -/

/-- Reading back an encoded ModRM form. -/
@[simp] theorem takeModRM_encode (g : Oct) (e : Ea Oct) (t : List Byte) (h : e.wellFormed = true) :
    takeModRM (encodeModRM g e ++ t) = some (g, e, t) := by
  cases e with
  | reg r => simp [encodeModRM, takeModRM]
  | mem m =>
    cases m with
    | noDisp b => cases b <;> first | (cases h; done) | simp [encodeModRM, takeModRM, Base.code, Base.ofOct]
    | direct a => simp [encodeModRM, takeModRM]
    | disp8 b d => simp [encodeModRM, takeModRM]
    | disp16 b d => simp [encodeModRM, takeModRM]

/-- The first byte of an encoded ModRM form. -/
theorem encodeModRM_head (g : Oct) (e : Ea Oct) :
    ∃ x z t, encodeModRM g e = octal x g z :: t ∧ (x = .q3 ↔ ∃ r, e = .reg r) := by
  cases e with
  | reg r => exact ⟨.q3, r, [], rfl, by simp⟩
  | mem m =>
    cases m with
    | noDisp b => exact ⟨.q0, b.code, [], rfl, by simp⟩
    | direct a => exact ⟨.q0, .o6, leBytes a, rfl, by simp⟩
    | disp8 b d => exact ⟨.q1, b.code, [d], rfl, by simp⟩
    | disp16 b d => exact ⟨.q2, b.code, leBytes d, rfl, by simp⟩

/-- What a ModRM read gives is well-formed, and encodes to the bytes it read. -/
theorem takeModRM_some {q t : List Byte} {g : Oct} {e : Ea Oct} (h : takeModRM q = some (g, e, t)) :
    e.wellFormed = true ∧ q = encodeModRM g e ++ t := by
  cases q with
  | nil => cases h
  | cons m q =>
    have hm := octal_fields m
    simp only [takeModRM] at h
    split at h
    · next hx => cases h; rw [hx] at hm; exact ⟨rfl, by simp [encodeModRM, hm]⟩
    · next hx =>
      split at h
      · next hz =>
        rw [hx, hz] at hm
        cases q with
        | nil => simp [take16] at h
        | cons a q =>
          cases q with
          | nil => simp [take16] at h
          | cons b q => simp [take16] at h; obtain ⟨rfl, rfl, rfl⟩ := h; exact ⟨rfl, by simp [encodeModRM, leBytes, hm]⟩
      · next hz =>
        cases h; rw [hx] at hm
        refine ⟨?_, by simp [encodeModRM, hm]⟩
        generalize low3 m = k at hz
        cases k <;> first | rfl | exact absurd rfl hz
    · next hx =>
      rw [hx] at hm
      cases q with
      | nil => simp [take8] at h
      | cons a q => simp [take8] at h; obtain ⟨rfl, rfl, rfl⟩ := h; exact ⟨rfl, by simp [encodeModRM, hm]⟩
    · next hx =>
      rw [hx] at hm
      cases q with
      | nil => simp [take16] at h
      | cons a q =>
        cases q with
        | nil => simp [take16] at h
        | cons b q => simp [take16] at h; obtain ⟨rfl, rfl, rfl⟩ := h; exact ⟨rfl, by simp [encodeModRM, leBytes, hm]⟩

/-- Reading back a ModRM form with nothing after it. -/
theorem withRM_encode (g : Oct) (e : Ea Oct) (t : List Byte) (f : Oct → Ea Oct → Instr) (h : e.wellFormed = true) :
    withRM (encodeModRM g e ++ t) f = some (f g e) := by
  simp [withRM, h]

/-- Reading back a ModRM form with a byte immediate. -/
theorem withRM8_encode (g : Oct) (e : Ea Oct) (i : Byte) (t : List Byte) (f : Oct → Ea Oct → Byte → Instr)
    (h : e.wellFormed = true) : withRM8 (encodeModRM g e ++ i :: t) f = some (f g e i) := by
  simp [withRM8, h]

/-- Reading back a ModRM form with a word immediate. -/
theorem withRM16_encode (g : Oct) (e : Ea Oct) (i : Word) (t : List Byte) (f : Oct → Ea Oct → Word → Instr)
    (h : e.wellFormed = true) : withRM16 (encodeModRM g e ++ (leBytes i ++ t)) f = some (f g e i) := by
  simp [withRM16, h]

/-- Reading back a memory-only form. -/
theorem withMem_encode (p : List Pfx) (op : Byte) (g : Oct) (m : MemRef) (t : List Byte) (f : Oct → MemRef → Instr)
    (h : m.wellFormed = true) : withMem p op (encodeModRM g (.mem m) ++ t) f = some (f g m) := by
  obtain ⟨x, z, u, hu, hx⟩ := encodeModRM_head g (.mem m)
  have hx' : x ≠ .q3 := fun e => by obtain ⟨r, hr⟩ := hx.1 e; cases hr
  have ht := takeModRM_encode g (.mem m) t h
  rw [hu] at ht ⊢
  simp only [List.cons_append] at ht ⊢
  simp only [withMem, top2_octal]
  cases x <;> first | exact absurd rfl hx' | simp [ht]

/-- The `reg` field of an encoded ModRM form. -/
theorem encodeModRM_mid3 (g : Oct) (e : Ea Oct) (t : List Byte) :
    ∃ m u, encodeModRM g e ++ t = m :: u ∧ mid3 m = g := by
  obtain ⟨x, z, u, hu, _⟩ := encodeModRM_head g e
  exact ⟨_, _, by rw [hu]; rfl, by simp⟩

/-- A ModRM byte and its displacement are one to three bytes. -/
theorem encodeModRM_length (g : Oct) (e : Ea Oct) : (encodeModRM g e).length ≤ 3 := by
  cases e with
  | reg r => simp [encodeModRM]
  | mem m => cases m <;> simp [encodeModRM, leBytes]

/-! ### The prefix chain -/

@[simp] theorem Pfx.ofByte_byte (x : Pfx) : Pfx.ofByte x.byte = some x := by
  cases x with
  | seg s => cases s <;> rfl
  | repne => rfl
  | rep => rfl

theorem Pfx.byte_of_ofByte {b : Byte} {x : Pfx} (h : Pfx.ofByte b = some x) : x.byte = b := by
  unfold Pfx.ofByte at h
  repeat' split at h
  all_goals first | (cases h; done) | (cases h; subst_vars; rfl)

/-- Reading back an encoded prefix chain: shorter than the limit and before a byte that is no prefix, or of the limit's
length. -/
theorem takePrefixes_encode (n : Nat) (p : List Pfx) (op : Byte) (t : List Byte)
    (h : p.length = n ∨ p.length < n ∧ Pfx.ofByte op = none) :
    takePrefixes n (p.map Pfx.byte ++ op :: t) = (p, op :: t) := by
  induction p generalizing n with
  | nil =>
    rcases h with rfl | ⟨h, ho⟩
    · rfl
    · cases n with
      | zero => rfl
      | succ n => simp [takePrefixes, ho]
  | cons x p ih =>
    cases n with
    | zero => simp at h
    | succ n => simp [takePrefixes, ih n (by simpa using h)]

/-- What the prefix loop gives: at most the limit, and the bytes are the chain's, then the rest. -/
theorem takePrefixes_spec (n : Nat) (q : List Byte) :
    (takePrefixes n q).1.length ≤ n ∧ q = (takePrefixes n q).1.map Pfx.byte ++ (takePrefixes n q).2 ∧
    ((takePrefixes n q).1.length < n → ∀ op t, (takePrefixes n q).2 = op :: t → Pfx.ofByte op = none) := by
  induction n generalizing q with
  | zero => simp [takePrefixes]
  | succ n ih =>
    cases q with
    | nil => simp [takePrefixes]
    | cons b q =>
      simp only [takePrefixes]
      split
      · next x hx =>
        obtain ⟨h1, h2, h3⟩ := ih q
        refine ⟨by simpa using h1, ?_, fun h => h3 (by simpa using h)⟩
        simp only [List.map_cons, List.cons_append, Pfx.byte_of_ofByte hx]
        rw [← h2]
      · next hx => exact ⟨by simp, by simp, fun _ op t e => by cases e; exact hx⟩

/-- Decoding prefixes and an opcode dispatches on the opcode. -/
theorem decode_encode (p : List Pfx) (op : Byte) (t : List Byte)
    (h : p.length = Config.maxPrefixes ∨ p.length < Config.maxPrefixes ∧ Pfx.ofByte op = none) :
    decode (p.map Pfx.byte ++ op :: t) = decodeOp p op t := by
  unfold decode
  rw [takePrefixes_encode _ _ _ _ h]

@[simp] theorem decodeOp_octal (p : List Pfx) (x : Quad) (y z : Oct) (t : List Byte) :
    decodeOp p (octal x y z) t =
      match x with
      | .q0 => decode0 p y z t
      | .q1 => decode1 p y z t
      | .q2 => decode2 p y z t
      | .q3 => decode3 p y z t := by
  cases x <;> simp [decodeOp]

end Sys2Proof
end

