-- ==== Sys2Proof/Laws/Frame.lean ====
section
/-! SUPPORT. Footprints: how frames compose, the frame of each named operation, and what writing an operand leaves. -/

namespace Sys2Proof.Machine

/-! ### Composition -/

theorem Frame.refl (s : State) : Frame {} s s :=
  { regs := fun _ _ => rfl, segs := fun _ _ => rfl, flags := fun _ _ => rfl, bytes := fun _ _ => rfl
    ip := fun _ => rfl, halted := fun _ => rfl, undefSeen := fun _ => rfl, draws := fun _ => rfl
    pq := rfl, dq := rfl, stepMode := rfl, stage := rfl, nmiLatched := rfl, stopRequested := rfl, params := rfl
    intr := rfl }

/-- One footprint lies in another. -/
structure Footprint.Le (w w' : Footprint) : Prop where
  regs : ∀ r, r ∈ w.regs → r ∈ w'.regs
  segs : ∀ g, g ∈ w.segs → g ∈ w'.segs
  flags : ∀ n, n ∈ w.flags → n ∈ w'.flags
  bytes : ∀ a, a ∈ w.bytes → a ∈ w'.bytes
  ip : w.ip = true → w'.ip = true
  halted : w.halted = true → w'.halted = true
  undefSeen : w.undefSeen = true → w'.undefSeen = true
  draws : w.draws = true → w'.draws = true

/-- Two changes one after the other. -/
def Footprint.both (w w' : Footprint) : Footprint :=
  { regs := w.regs ++ w'.regs, segs := w.segs ++ w'.segs, flags := w.flags ++ w'.flags, bytes := w.bytes ++ w'.bytes
    ip := w.ip || w'.ip, halted := w.halted || w'.halted, undefSeen := w.undefSeen || w'.undefSeen
    draws := w.draws || w'.draws }

theorem Frame.mono {w w' : Footprint} {s t : State} (h : Frame w s t) (l : w.Le w') : Frame w' s t where
  regs r hr := h.regs r fun m => hr (l.regs r m)
  segs g hg := h.segs g fun m => hg (l.segs g m)
  flags n hn := h.flags n fun m => hn (l.flags n m)
  bytes a ha := h.bytes a fun m => ha (l.bytes a m)
  ip e := h.ip (by cases hw : w.ip with | false => rfl | true => simp [l.ip hw] at e)
  halted e := h.halted (by cases hw : w.halted with | false => rfl | true => simp [l.halted hw] at e)
  undefSeen e := h.undefSeen (by cases hw : w.undefSeen with | false => rfl | true => simp [l.undefSeen hw] at e)
  draws e := h.draws (by cases hw : w.draws with | false => rfl | true => simp [l.draws hw] at e)
  pq := h.pq
  dq := h.dq
  stepMode := h.stepMode
  stage := h.stage
  nmiLatched := h.nmiLatched
  stopRequested := h.stopRequested
  params := h.params
  intr := h.intr

theorem Frame.trans {w w' : Footprint} {s t u : State} (h : Frame w s t) (k : Frame w' t u) :
    Frame (w.both w') s u where
  regs r hr := by
    simp only [Footprint.both, List.mem_append, not_or] at hr
    rw [k.regs r hr.2, h.regs r hr.1]
  segs g hg := by
    simp only [Footprint.both, List.mem_append, not_or] at hg
    rw [k.segs g hg.2, h.segs g hg.1]
  flags n hn := by
    simp only [Footprint.both, List.mem_append, not_or] at hn
    rw [k.flags n hn.2, h.flags n hn.1]
  bytes a ha := by
    simp only [Footprint.both, List.mem_append, not_or] at ha
    rw [k.bytes a ha.2, h.bytes a ha.1]
  ip e := by
    simp only [Footprint.both, Bool.or_eq_false_iff] at e
    rw [k.ip e.2, h.ip e.1]
  halted e := by
    simp only [Footprint.both, Bool.or_eq_false_iff] at e
    rw [k.halted e.2, h.halted e.1]
  undefSeen e := by
    simp only [Footprint.both, Bool.or_eq_false_iff] at e
    rw [k.undefSeen e.2, h.undefSeen e.1]
  draws e := by
    simp only [Footprint.both, Bool.or_eq_false_iff] at e
    rw [k.draws e.2, h.draws e.1]
  pq := by rw [k.pq, h.pq]
  dq := by rw [k.dq, h.dq]
  stepMode := by rw [k.stepMode, h.stepMode]
  stage := by rw [k.stage, h.stage]
  nmiLatched := by rw [k.nmiLatched, h.nmiLatched]
  stopRequested := by rw [k.stopRequested, h.stopRequested]
  params := by rw [k.params, h.params]
  intr := by rw [k.intr, h.intr]

/-! ### The frame of each operation -/

theorem State.setReg16_frame (s : State) (i : Reg16) (v : Word) : Frame { regs := [i] } s (s.setReg16 i v) :=
  { Frame.refl s with
    regs := fun r hr => by rw [State.setReg16_reg16, if_neg (by simpa using hr)]
    halted := fun _ => rfl, undefSeen := fun _ => rfl, ip := fun _ => rfl, draws := fun _ => rfl }

theorem State.setReg8_frame (s : State) (j : Reg8) (v : Byte) : Frame { regs := [Reg8.parent j] } s (s.setReg8 j v) :=
  State.setReg16_frame s _ _

theorem State.setSreg_frame (s : State) (g : SReg) (v : Word) : Frame { segs := [g] } s (s.setSreg g v) :=
  { Frame.refl s with
    segs := fun r hr => by rw [State.setSreg_sreg, if_neg (by simpa using hr)]
    halted := fun _ => rfl, undefSeen := fun _ => rfl, ip := fun _ => rfl, draws := fun _ => rfl }

theorem State.withIp_frame (s : State) (v : Word) : Frame { ip := true } s (s.withIp v) :=
  { Frame.refl s with
    ip := fun e => nomatch e
    halted := fun _ => rfl, undefSeen := fun _ => rfl, draws := fun _ => rfl }

theorem State.withFlags_frame (s : State) (f : Flags) (l : List FlagName)
    (h : ∀ n, n ∉ l → f.get n = s.flags.get n) : Frame { flags := l } s (s.withFlags f) :=
  { Frame.refl s with
    flags := h
    halted := fun _ => rfl, undefSeen := fun _ => rfl, ip := fun _ => rfl, draws := fun _ => rfl }

theorem State.withHalted_frame (s : State) (b : Bool) : Frame { halted := true } s (s.withHalted b) :=
  { Frame.refl s with
    halted := fun e => nomatch e
    undefSeen := fun _ => rfl, ip := fun _ => rfl, draws := fun _ => rfl }

theorem State.withUndef_frame (s : State) (b : Bool) : Frame { undefSeen := true } s (s.withUndef b) :=
  { Frame.refl s with
    undefSeen := fun e => nomatch e
    halted := fun _ => rfl, ip := fun _ => rfl, draws := fun _ => rfl }

theorem State.withDraws_frame (s : State) (k : Nat) : Frame { draws := true } s (s.withDraws k) :=
  { Frame.refl s with
    draws := fun e => nomatch e
    halted := fun _ => rfl, undefSeen := fun _ => rfl, ip := fun _ => rfl }

theorem State.record_frame (s : State) (e : Event) : Frame {} s (s.record e) :=
  { Frame.refl s with
    halted := fun _ => rfl, undefSeen := fun _ => rfl, ip := fun _ => rfl, draws := fun _ => rfl }

theorem State.write8_frame (s : State) (a : Addr) (v : Byte) (h : s.mem.wf = true) :
    Frame { bytes := [a] } s (s.write8 a v) :=
  { Frame.refl s with
    bytes := fun b hb => by
      rw [State.write8_read8 _ _ _ _ h, if_neg]
      exact fun e => hb (by simp [e.1])
    halted := fun _ => rfl, undefSeen := fun _ => rfl, ip := fun _ => rfl, draws := fun _ => rfl }

theorem State.write16_frame (s : State) (a : Addr) (v : Word) (h : s.mem.wf = true) :
    Frame { bytes := [a, a + 1] } s (s.write16 a v) :=
  { Frame.refl s with
    bytes := fun b hb => by
      rw [State.write16_read8 _ _ _ _ h, if_neg, if_neg]
      · exact fun e => hb (by simp [e.1])
      · exact fun e => hb (by simp [e.1])
    halted := fun _ => rfl, undefSeen := fun _ => rfl, ip := fun _ => rfl, draws := fun _ => rfl }

theorem State.push16_frame (s : State) (v : Word) (h : s.mem.wf = true) :
    Frame { regs := [.sp], bytes := [s.pushAddr, s.pushAddr + 1] } s (s.push16 v) :=
  ((State.setReg16_frame s .sp (s.reg16 .sp - 2)).trans (State.write16_frame _ s.pushAddr v h)).mono
    ⟨fun _ h => h, fun _ h => h, fun _ h => h, fun _ h => h, fun h => h, fun h => h, fun h => h, fun h => h⟩

theorem State.drop16_frame (s : State) : Frame { regs := [.sp] } s s.drop16 := State.setReg16_frame s _ _

/-! ### What a write leaves -/

theorem State.write8_wrote (s : State) (a : Addr) (v : Byte) (h : s.mem.wf = true) :
    Wrote8 s (s.write8 a v) (.mem a) v := by
  show (s.write8 a v).read8 a = _
  rw [State.write8_read8 _ _ _ _ h]
  cases inRom a <;> simp

theorem State.write16_wrote (s : State) (a : Addr) (v : Word) (h : s.mem.wf = true) :
    Wrote16 s (s.write16 a v) (.mem a) v := by
  refine ⟨?_, ?_⟩
  · rw [State.write16_read8 _ _ _ _ h, if_neg (fun e => addr_succ_ne a e.1.symm)]
    cases inRom a <;> simp
  · rw [State.write16_read8 _ _ _ _ h]
    cases inRom (a + 1) <;> simp

/-- Everything a byte operand write does: the value, the event, nothing else. -/
theorem State.writeLoc8_spec (s : State) (d : Loc Reg8) (v : Byte) (h : s.mem.wf = true) :
    Wrote8 s (s.writeLoc8 d v) d v ∧ (s.writeLoc8 d v).log = s.log ++ d.events8 v ∧
      Frame { regs := d.regs8, bytes := d.bytes8 } s (s.writeLoc8 d v) := by
  cases d with
  | reg r =>
    refine ⟨⟨?_, fun j hj => ?_⟩, by simp [State.writeLoc8, Loc.events8], State.setReg8_frame s r v⟩
    · simp [State.writeLoc8, State.setReg8_reg8]
    · simp [State.writeLoc8, State.setReg8_reg8, hj]
  | mem a => exact ⟨State.write8_wrote s a v h, rfl, State.write8_frame s a v h⟩

/-- Everything a word operand write does. -/
theorem State.writeLoc16_spec (s : State) (d : Loc Reg16) (v : Word) (h : s.mem.wf = true) :
    Wrote16 s (s.writeLoc16 d v) d v ∧ (s.writeLoc16 d v).log = s.log ++ d.events16 v ∧
      Frame { regs := d.regs16, bytes := d.bytes16 } s (s.writeLoc16 d v) := by
  cases d with
  | reg r =>
    refine ⟨?_, by simp [State.writeLoc16, Loc.events16], State.setReg16_frame s r v⟩
    simp [Wrote16, State.writeLoc16, State.setReg16_reg16]
  | mem a => exact ⟨State.write16_wrote s a v h, rfl, State.write16_frame s a v h⟩

theorem State.writeLoc8_flags (s : State) (d : Loc Reg8) (v : Byte) : (s.writeLoc8 d v).flags = s.flags := by
  cases d <;> rfl

theorem State.writeLoc16_flags (s : State) (d : Loc Reg16) (v : Word) : (s.writeLoc16 d v).flags = s.flags := by
  cases d <;> rfl

theorem State.writeLoc8_wf (s : State) (d : Loc Reg8) (v : Byte) (h : s.mem.wf = true) :
    (s.writeLoc8 d v).mem.wf = true := by
  cases d with
  | reg r => simpa [State.writeLoc8] using h
  | mem a => exact State.write8_wf s a v h

theorem State.writeLoc16_wf (s : State) (d : Loc Reg16) (v : Word) (h : s.mem.wf = true) :
    (s.writeLoc16 d v).mem.wf = true := by
  cases d with
  | reg r => simpa [State.writeLoc16] using h
  | mem a => exact State.write16_wf s a v h

/-! ### The stack -/

/-- A push leaves its word at the push address (20_memory.md R94). -/
theorem State.push16_wrote (s : State) (v : Word) (h : s.mem.wf = true) :
    Wrote16 s (s.push16 v) (.mem s.pushAddr) v :=
  State.write16_wrote s s.pushAddr v h

/-- Two bytes of one segment, each at an offset or just after it, are different when their offsets are. -/
theorem linear_ne (seg x y : Word) (i j : Nat) (h : (x.toNat + i) % 2 ^ 20 ≠ (y.toNat + j) % 2 ^ 20) :
    linear seg x + BitVec.ofNat 20 i ≠ linear seg y + BitVec.ofNat 20 j := by
  intro e
  have := congrArg BitVec.toNat e
  simp [linear, BitVec.toNat_add, BitVec.toNat_mul] at this
  omega

end Sys2Proof.Machine
end

