-- ==== Sys2Proof/Laws/Exec.lean ====
section
/-! SUPPORT. What every meaning keeps: the pipeline's own state, the host's, the parameters, the canonical memory, the
read-only region, the log so far. -/

namespace Sys2Proof.Machine

/-- What no instruction changes, and what it only extends. -/
structure Kept (s t : State) : Prop where
  pq : t.pq = s.pq
  dq : t.dq = s.dq
  stepMode : t.stepMode = s.stepMode
  stage : t.stage = s.stage
  nmiLatched : t.nmiLatched = s.nmiLatched
  stopRequested : t.stopRequested = s.stopRequested
  params : t.params = s.params
  intr : t.intr = s.intr
  undefSeen : s.undefSeen = true → t.undefSeen = true
  log : s.log <+: t.log
  wf : s.mem.wf = true → t.mem.wf = true
  rom : s.mem.wf = true → ∀ a, inRom a = true → t.read8 a = s.read8 a

theorem Kept.refl (s : State) : Kept s s :=
  ⟨rfl, rfl, rfl, rfl, rfl, rfl, rfl, rfl, id, List.prefix_rfl, id, fun _ _ _ => rfl⟩

theorem Kept.trans {s t u : State} (h : Kept s t) (k : Kept t u) : Kept s u :=
  ⟨k.pq.trans h.pq, k.dq.trans h.dq, k.stepMode.trans h.stepMode, k.stage.trans h.stage,
    k.nmiLatched.trans h.nmiLatched, k.stopRequested.trans h.stopRequested, k.params.trans h.params,
    k.intr.trans h.intr, fun e => k.undefSeen (h.undefSeen e), h.log.trans k.log, fun e => k.wf (h.wf e),
    fun e a r => (k.rom (h.wf e) a r).trans (h.rom e a r)⟩

theorem State.setReg16_kept (s : State) (i : Reg16) (v : Word) : Kept s (s.setReg16 i v) :=
  ⟨rfl, rfl, rfl, rfl, rfl, rfl, rfl, rfl, id, List.prefix_rfl, id, fun _ _ _ => rfl⟩

theorem State.setReg8_kept (s : State) (j : Reg8) (v : Byte) : Kept s (s.setReg8 j v) := State.setReg16_kept s _ _

theorem State.setSreg_kept (s : State) (g : SReg) (v : Word) : Kept s (s.setSreg g v) :=
  ⟨rfl, rfl, rfl, rfl, rfl, rfl, rfl, rfl, id, List.prefix_rfl, id, fun _ _ _ => rfl⟩

theorem State.withIp_kept (s : State) (v : Word) : Kept s (s.withIp v) :=
  ⟨rfl, rfl, rfl, rfl, rfl, rfl, rfl, rfl, id, List.prefix_rfl, id, fun _ _ _ => rfl⟩

theorem State.withFlags_kept (s : State) (f : Flags) : Kept s (s.withFlags f) :=
  ⟨rfl, rfl, rfl, rfl, rfl, rfl, rfl, rfl, id, List.prefix_rfl, id, fun _ _ _ => rfl⟩

theorem State.withHalted_kept (s : State) (b : Bool) : Kept s (s.withHalted b) :=
  ⟨rfl, rfl, rfl, rfl, rfl, rfl, rfl, rfl, id, List.prefix_rfl, id, fun _ _ _ => rfl⟩

theorem State.withDraws_kept (s : State) (k : Nat) : Kept s (s.withDraws k) :=
  ⟨rfl, rfl, rfl, rfl, rfl, rfl, rfl, rfl, id, List.prefix_rfl, id, fun _ _ _ => rfl⟩

theorem State.withUndef_kept (s : State) : Kept s (s.withUndef true) :=
  ⟨rfl, rfl, rfl, rfl, rfl, rfl, rfl, rfl, fun _ => rfl, List.prefix_rfl, id, fun _ _ _ => rfl⟩

theorem State.record_kept (s : State) (e : Event) : Kept s (s.record e) :=
  ⟨rfl, rfl, rfl, rfl, rfl, rfl, rfl, rfl, id, List.prefix_append _ _, id, fun _ _ _ => rfl⟩

theorem State.write8_kept (s : State) (a : Addr) (v : Byte) : Kept s (s.write8 a v) :=
  ⟨rfl, rfl, rfl, rfl, rfl, rfl, rfl, rfl, id, List.prefix_append _ _, State.write8_wf s a v, fun h b hb => by
    rw [State.write8_read8 _ _ _ _ h, if_neg]
    rintro ⟨rfl, e⟩; rw [hb] at e; cases e⟩

theorem State.write16_kept (s : State) (a : Addr) (v : Word) : Kept s (s.write16 a v) :=
  ⟨rfl, rfl, rfl, rfl, rfl, rfl, rfl, rfl, id, List.prefix_append _ _, State.write16_wf s a v, fun h b hb => by
    rw [State.write16_read8 _ _ _ _ h, if_neg, if_neg]
    · rintro ⟨rfl, e⟩; rw [hb] at e; cases e
    · rintro ⟨rfl, e⟩; rw [hb] at e; cases e⟩

theorem State.push16_kept (s : State) (v : Word) : Kept s (s.push16 v) :=
  (State.setReg16_kept s _ _).trans (State.write16_kept _ _ _)

theorem State.drop16_kept (s : State) : Kept s s.drop16 := State.setReg16_kept s _ _

theorem State.writeLoc8_kept (s : State) (d : Loc Reg8) (v : Byte) : Kept s (s.writeLoc8 d v) := by
  cases d with
  | reg r => exact State.setReg8_kept s r v
  | mem a => exact State.write8_kept s a v

theorem State.writeLoc16_kept (s : State) (d : Loc Reg16) (v : Word) : Kept s (s.writeLoc16 d v) := by
  cases d with
  | reg r => exact State.setReg16_kept s r v
  | mem a => exact State.write16_kept s a v

theorem State.aluWrite_kept (s : State) (fn : AluFn) (q : Pair) : Kept s (s.aluWrite fn q) := by
  cases q with
  | b d a c => exact (State.withFlags_kept s _).trans (State.writeLoc8_kept _ _ _)
  | w d a c => exact (State.withFlags_kept s _).trans (State.writeLoc16_kept _ _ _)

theorem State.aluDiscard_kept (s : State) (fn : AluFn) (q : Pair) : Kept s (s.aluDiscard fn q) := by
  cases q <;> exact State.withFlags_kept s _

theorem State.logicFlagsOf_kept {n : Nat} (s : State) (r : BitVec n) : Kept s (s.logicFlagsOf r) :=
  (State.withFlags_kept s _).trans (State.withDraws_kept _ _)

theorem State.logicWrite_kept (s : State) (fn : LogicFn) (q : Pair) : Kept s (s.logicWrite fn q) := by
  cases q with
  | b d a c => exact (State.logicFlagsOf_kept s _).trans (State.writeLoc8_kept _ _ _)
  | w d a c => exact (State.logicFlagsOf_kept s _).trans (State.writeLoc16_kept _ _ _)

theorem State.logicDiscard_kept (s : State) (fn : LogicFn) (q : Pair) : Kept s (s.logicDiscard fn q) := by
  cases q <;> exact State.logicFlagsOf_kept s _

theorem State.unaryWrite_kept (s : State) (fn : UnaryFn) (q : Single) : Kept s (s.unaryWrite fn q) := by
  cases q with
  | b d a => exact (State.withFlags_kept s _).trans (State.writeLoc8_kept _ _ _)
  | w d a => exact (State.withFlags_kept s _).trans (State.writeLoc16_kept _ _ _)

theorem State.afterPortIn_kept (s : State) (port : Word) (v : Datum) : Kept s (s.afterPortIn port v) :=
  (State.record_kept s _).trans (State.withDraws_kept _ _)

theorem State.inAcc_kept (s : State) (w : Width) (port : Word) : Kept s (s.inAcc w port) := by
  cases w with
  | byte => exact (State.afterPortIn_kept s _ _).trans (State.setReg8_kept _ _ _)
  | word => exact (State.afterPortIn_kept s _ _).trans (State.setReg16_kept _ _ _)

theorem State.outAcc_kept (s : State) (w : Width) (port : Word) : Kept s (s.outAcc w port) := by
  cases w <;> exact State.record_kept s _

theorem State.jumpIf_kept (s : State) (c : Bool) (d : Byte) : Kept s (s.jumpIf c d) := by
  cases c with
  | false => exact Kept.refl s
  | true => exact State.withIp_kept s _

theorem State.loopIf_kept (s : State) (c : Bool) (d : Byte) : Kept s (s.loopIf c d) :=
  (State.setReg16_kept s _ _).trans (State.jumpIf_kept _ _ _)

theorem State.jumpFar_kept (s : State) (off sel : Word) : Kept s (s.jumpFar off sel) :=
  (State.withIp_kept s _).trans (State.setSreg_kept _ _ _)

theorem State.pushFarReturn_kept (s : State) : Kept s s.pushFarReturn :=
  (State.push16_kept s _).trans (State.push16_kept _ _)

theorem State.popIp_kept (s : State) : Kept s s.popIp := (State.drop16_kept s).trans (State.withIp_kept _ _)

theorem State.popFar_kept (s : State) : Kept s s.popFar :=
  ((State.popIp_kept s).trans (State.drop16_kept _)).trans (State.setSreg_kept _ _ _)

theorem State.interrupt_kept (s : State) (n : Byte) (src : IntSource) : Kept s (s.interrupt n src) :=
  ((((((State.push16_kept s _).trans (State.withFlags_kept _ _)).trans (State.push16_kept _ _)).trans
    (State.push16_kept _ _)).trans (State.withIp_kept _ _)).trans (State.setSreg_kept _ _ _)).trans
    ((State.withHalted_kept _ _).trans (State.record_kept _ _))

theorem State.interruptReturn_kept (s : State) : Kept s s.interruptReturn :=
  (((State.drop16_kept s).trans (State.withIp_kept _ _)).trans
    ((State.drop16_kept _).trans (State.setSreg_kept _ _ _))).trans
    ((State.drop16_kept _).trans (State.withFlags_kept _ _))

/-! ### What an instruction can answer -/

/-- Everything a meaning can answer: a next state that keeps what is kept; a fault, only of the generic instruction in
its mode; a refusal, only of a refused encoding. -/
inductive Answers (i : Instr) (s : State) : Result → Prop where
  | next (t : State) (h : Kept s t) (hr : i.isRefused = false) : Answers i s (.next t)
  | fault (hr : i.isRefused = false) (hm : s.params.unknownMode = .fault) :
      Answers i s (.fault (.undefinedInstruction (s.startAddr i.len) i.bytes))
  | refused (hr : i.isRefused = true) : Answers i s (.refused (.notAdmitted i.opcode i.ext s.insAddr))

theorem genericEffect_answers (i : Instr) (s : State) (hr : i.isRefused = false) :
    Answers i s (s.genericEffect i.bytes) := by
  unfold State.genericEffect
  cases h : s.params.unknownMode with
  | noopReport => exact .next _ ((State.withUndef_kept s).trans (State.record_kept _ _)) hr
  | fault => exact .fault hr h

/-- What the meaning of any instruction answers. -/
theorem exec_answers (i : Instr) (s : State) : Answers i s (exec i s) := by
  cases i with
  | add p f | adc p f | sub p f | sbb p f => exact .next _ (State.aluWrite_kept s _ _) rfl
  | lor p f | land p f | lxor p f => exact .next _ (State.logicWrite_kept s _ _) rfl
  | cmp p f => exact .next _ (State.aluDiscard_kept s _ _) rfl
  | test p f => exact .next _ (State.logicDiscard_kept s _ _) rfl
  | inc p f | dec p f | neg p f | lnot p f => exact .next _ (State.unaryWrite_kept s _ _) rfl
  | cbw p | cwd p => exact .next _ (State.setReg16_kept s _ _) rfl
  | movRm p f =>
    cases f with
    | ebGb e g => exact .next _ (State.writeLoc8_kept s _ _) rfl
    | evGv e g => exact .next _ (State.writeLoc16_kept s _ _) rfl
    | gbEb g e => exact .next _ (State.setReg8_kept s _ _) rfl
    | gvEv g e => exact .next _ (State.setReg16_kept s _ _) rfl
  | movFromSeg p e g => exact .next _ (State.writeLoc16_kept s _ _) rfl
  | movToSeg p g e => exact .next _ (State.setSreg_kept s _ _) rfl
  | movAccMoffs p w off =>
    cases w with
    | byte => exact .next _ (State.setReg8_kept s _ _) rfl
    | word => exact .next _ (State.setReg16_kept s _ _) rfl
  | movMoffsAcc p w off =>
    cases w with
    | byte => exact .next _ (State.write8_kept s _ _) rfl
    | word => exact .next _ (State.write16_kept s _ _) rfl
  | movRbIb p r v | xlat p | lahf p => exact .next _ (State.setReg8_kept s _ _) rfl
  | movRwIw p r v | lea p r v => exact .next _ (State.setReg16_kept s _ _) rfl
  | movRmImm p f =>
    cases f with
    | ebIb e v => exact .next _ (State.writeLoc8_kept s _ _) rfl
    | evIw e v => exact .next _ (State.writeLoc16_kept s _ _) rfl
  | xchgRm p f =>
    cases f with
    | ebGb e g => exact .next _ ((State.writeLoc8_kept s _ _).trans (State.setReg8_kept _ _ _)) rfl
    | evGv e g => exact .next _ ((State.writeLoc16_kept s _ _).trans (State.setReg16_kept _ _ _)) rfl
  | xchgAx p r => exact .next _ ((State.setReg16_kept s _ _).trans (State.setReg16_kept _ _ _)) rfl
  | nop p => exact .next _ (Kept.refl s) rfl
  | lds p g m | les p g m => exact .next _ ((State.setReg16_kept s _ _).trans (State.setSreg_kept _ _ _)) rfl
  | pushRw p r | pushSr p r | pushf p => exact .next _ (State.push16_kept s _) rfl
  | pushRm p e =>
    cases e with
    | reg r => exact .next _ (State.push16_kept s _) rfl
    | mem m => exact .next _ (State.push16_kept s _) rfl
  | popRw p r => exact .next _ ((State.drop16_kept s).trans (State.setReg16_kept _ _ _)) rfl
  | popSr p g => exact .next _ ((State.drop16_kept s).trans (State.setSreg_kept _ _ _)) rfl
  | popRm p e => exact .next _ ((State.drop16_kept s).trans (State.writeLoc16_kept _ _ _)) rfl
  | popf p => exact .next _ ((State.drop16_kept s).trans (State.withFlags_kept _ _)) rfl
  | sahf p | clc p | stc p | cmc p | cli p | sti p | cld p | std p => exact .next _ (State.withFlags_kept s _) rfl
  | inImm p w port | inDx p w => exact .next _ (State.inAcc_kept s _ _) rfl
  | outImm p w port | outDx p w => exact .next _ (State.outAcc_kept s _ _) rfl
  | jo p d | jno p d | jb p d | jnb p d | jz p d | jnz p d | jbe p d | ja p d | js p d | jns p d | jp p d | jnp p d
  | jl p d | jge p d | jle p d | jg p d | jcxz p d => exact .next _ (State.jumpIf_kept s _ _) rfl
  | jmpShort p d | jmpNear p d | jmpRm p d => exact .next _ (State.withIp_kept s _) rfl
  | jmpFar p off sel => exact .next _ (State.jumpFar_kept s _ _) rfl
  | jmpMem p m => exact .next _ (State.jumpFar_kept s _ _) rfl
  | loop p d | loope p d | loopne p d => exact .next _ (State.loopIf_kept s _ _) rfl
  | callNear p d | callRm p d => exact .next _ ((State.push16_kept s _).trans (State.withIp_kept _ _)) rfl
  | callFar p off sel => exact .next _ ((State.pushFarReturn_kept s).trans (State.jumpFar_kept _ _ _)) rfl
  | callMem p m => exact .next _ ((State.pushFarReturn_kept s).trans (State.jumpFar_kept _ _ _)) rfl
  | ret p => exact .next _ (State.popIp_kept s) rfl
  | retImm p v => exact .next _ ((State.popIp_kept s).trans (State.setReg16_kept _ _ _)) rfl
  | retf p => exact .next _ (State.popFar_kept s) rfl
  | retfImm p v => exact .next _ ((State.popFar_kept s).trans (State.setReg16_kept _ _ _)) rfl
  | int p n => exact .next _ (State.interrupt_kept s _ _) rfl
  | int3 p => exact .next _ (State.interrupt_kept s _ _) rfl
  | into p =>
    unfold exec execInto
    cases s.flags.of with
    | false => exact .next _ (Kept.refl s) rfl
    | true => exact .next _ (State.interrupt_kept s _ _) rfl
  | iret p => exact .next _ (State.interruptReturn_kept s) rfl
  | hlt p => exact .next _ (State.withHalted_kept s _) rfl
  | daa p | das p | aaa p | aas p | wait p | movsb p | movsw p | cmpsb p | cmpsw p | stosb p | stosw p | lodsb p
  | lodsw p | scasb p | scasw p | aam p | aad p | lock p => exact .refused rfl
  | shiftRotate p f => cases f <;> exact .refused rfl
  | esc p k => cases k <;> exact .refused rfl
  | mul p w md rm | imul p w md rm | div p w md rm | idiv p w md rm =>
    cases w <;> cases md <;> cases rm <;> exact .refused rfl
  | segByte p g | repneByte p | repByte p | generic p g => exact genericEffect_answers _ s rfl

/-- A next state keeps what is kept. -/
theorem exec_kept {i : Instr} {s t : State} (h : exec i s = .next t) : Kept s t := by
  have := exec_answers i s
  rw [h] at this
  cases this with
  | next _ k _ => exact k

end Sys2Proof.Machine
end

