-- ==== Sys2Proof/Laws/PerInstr.lean ====
section
/-! SUPPORT. One statement for every constructor of Instr: the bytes after its prefixes. -/

namespace Sys2Proof.Laws.Encoding

/-- The body of an instruction: an opcode byte, at most five bytes after it, and the opcode is a prefix byte only in the
constructors that stand for one (30_encoding.md R142, R143, R152). -/
def Shape (b : List Byte) (prefixByte : Bool) : Prop :=
  ∃ op t, b = op :: t ∧ t.length ≤ 5 ∧ (prefixByte = false → Pfx.ofByte op = none)

/-- A well-formed instruction's body has that shape. -/
def Statement (i : Instr) : Prop := i.operandsWellFormed = true → Shape i.body i.isPrefixByte

theorem eb_length (g : Oct) (e : Ea Reg8) : (encodeEb g e).length ≤ 3 := encodeModRM_length _ _

theorem ev_length (g : Oct) (e : Ea Reg16) : (encodeEv g e).length ≤ 3 := encodeModRM_length _ _

theorem m_length (g : Oct) (m : MemRef) : (encodeM g m).length ≤ 3 := encodeModRM_length _ _

theorem shape_eb (op : Byte) (g : Oct) (e : Ea Reg8) (k : List Byte) (hk : k.length ≤ 2) (h : Pfx.ofByte op = none) :
    Shape (op :: (encodeEb g e ++ k)) false :=
  ⟨op, _, rfl, by have := eb_length g e; simp; omega, fun _ => h⟩

theorem shape_ev (op : Byte) (g : Oct) (e : Ea Reg16) (k : List Byte) (hk : k.length ≤ 2) (h : Pfx.ofByte op = none) :
    Shape (op :: (encodeEv g e ++ k)) false :=
  ⟨op, _, rfl, by have := ev_length g e; simp; omega, fun _ => h⟩

theorem shape_eb0 (op : Byte) (g : Oct) (e : Ea Reg8) (h : Pfx.ofByte op = none) : Shape (op :: encodeEb g e) false := by
  simpa using shape_eb op g e [] (by simp) h

theorem shape_ev0 (op : Byte) (g : Oct) (e : Ea Reg16) (h : Pfx.ofByte op = none) : Shape (op :: encodeEv g e) false := by
  simpa using shape_ev op g e [] (by simp) h

theorem shape_m (op : Byte) (g : Oct) (m : MemRef) (h : Pfx.ofByte op = none) : Shape (op :: encodeM g m) false :=
  ⟨op, _, rfl, by have := m_length g m; omega, fun _ => h⟩

theorem shape_short (op : Byte) (t : List Byte) (ht : t.length ≤ 5) (h : Pfx.ofByte op = none) : Shape (op :: t) false :=
  ⟨op, t, rfl, ht, fun _ => h⟩

theorem shape_alu (k : Oct) (f : AluForm) : Shape (f.encode k) false := by
  cases f with
  | ebGb e g => exact shape_eb0 _ _ _ (by cases k <;> rfl)
  | evGv e g => exact shape_ev0 _ _ _ (by cases k <;> rfl)
  | gbEb g e => exact shape_eb0 _ _ _ (by cases k <;> rfl)
  | gvEv g e => exact shape_ev0 _ _ _ (by cases k <;> rfl)
  | alIb i => exact shape_short _ _ (by simp) (by cases k <;> rfl)
  | axIw i => exact shape_short _ _ (by simp [leBytes]) (by cases k <;> rfl)
  | ebIb e i => exact shape_eb _ _ _ _ (by simp) rfl
  | ebIbAlias e i => exact shape_eb _ _ _ _ (by simp) rfl
  | evIw e i => exact shape_ev _ _ _ _ (by simp [leBytes]) rfl
  | evIbs e i => exact shape_ev _ _ _ _ (by simp) rfl

theorem unknownByte_no_prefix (b : Byte) (h : isUnknownByte b = true) : Pfx.ofByte b = none := by
  unfold Pfx.ofByte
  repeat' split
  all_goals first | rfl | (subst_vars; revert h; decide)

theorem unknownGroup_no_prefix (op m : Byte) (h : isUnknownGroup op m = true) : Pfx.ofByte op = none := by
  unfold Pfx.ofByte
  repeat' split
  all_goals first | rfl | (subst_vars; simp [isUnknownGroup] at h)

theorem add (p : List Pfx) (f : AluForm) : Statement (.add p f) := fun _ => shape_alu _ f

theorem lor (p : List Pfx) (f : AluForm) : Statement (.lor p f) := fun _ => shape_alu _ f

theorem adc (p : List Pfx) (f : AluForm) : Statement (.adc p f) := fun _ => shape_alu _ f

theorem sbb (p : List Pfx) (f : AluForm) : Statement (.sbb p f) := fun _ => shape_alu _ f

theorem land (p : List Pfx) (f : AluForm) : Statement (.land p f) := fun _ => shape_alu _ f

theorem sub (p : List Pfx) (f : AluForm) : Statement (.sub p f) := fun _ => shape_alu _ f

theorem lxor (p : List Pfx) (f : AluForm) : Statement (.lxor p f) := fun _ => shape_alu _ f

theorem cmp (p : List Pfx) (f : AluForm) : Statement (.cmp p f) := fun _ => shape_alu _ f

theorem test (p : List Pfx) (f : TestForm) : Statement (.test p f) := by
  intro _
  cases f with
  | ebGb e g => exact shape_eb0 _ _ _ rfl
  | evGv e g => exact shape_ev0 _ _ _ rfl
  | alIb i => exact shape_short _ _ (by simp) rfl
  | axIw i => exact shape_short _ _ (by simp [leBytes]) rfl
  | ebIb e i => exact shape_eb _ _ _ _ (by simp) rfl
  | evIw e i => exact shape_ev _ _ _ _ (by simp [leBytes]) rfl

theorem inc (p : List Pfx) (f : IncForm) : Statement (.inc p f) := by
  intro _
  cases f with
  | rw r => exact shape_short _ _ (by simp) (by cases r <;> rfl)
  | eb e => exact shape_eb0 _ _ _ rfl
  | ev e => exact shape_ev0 _ _ _ rfl

theorem dec (p : List Pfx) (f : IncForm) : Statement (.dec p f) := by
  intro _
  cases f with
  | rw r => exact shape_short _ _ (by simp) (by cases r <;> rfl)
  | eb e => exact shape_eb0 _ _ _ rfl
  | ev e => exact shape_ev0 _ _ _ rfl

theorem neg (p : List Pfx) (f : UnaryForm) : Statement (.neg p f) := by
  intro _
  cases f with
  | eb e => exact shape_eb0 _ _ _ rfl
  | ev e => exact shape_ev0 _ _ _ rfl

theorem lnot (p : List Pfx) (f : UnaryForm) : Statement (.lnot p f) := by
  intro _
  cases f with
  | eb e => exact shape_eb0 _ _ _ rfl
  | ev e => exact shape_ev0 _ _ _ rfl

theorem cbw (p : List Pfx) : Statement (.cbw p) := fun _ => shape_short _ _ (by simp) rfl

theorem cwd (p : List Pfx) : Statement (.cwd p) := fun _ => shape_short _ _ (by simp) rfl

theorem movRm (p : List Pfx) (f : MovForm) : Statement (.movRm p f) := by
  intro _
  cases f with
  | ebGb e g => exact shape_eb0 _ _ _ rfl
  | evGv e g => exact shape_ev0 _ _ _ rfl
  | gbEb g e => exact shape_eb0 _ _ _ rfl
  | gvEv g e => exact shape_ev0 _ _ _ rfl

theorem movFromSeg (p : List Pfx) (e : Ea Reg16) (s : SReg) : Statement (.movFromSeg p e s) :=
  fun _ => shape_ev0 _ _ _ rfl

theorem movToSeg (p : List Pfx) (s : SReg) (e : Ea Reg16) : Statement (.movToSeg p s e) :=
  fun _ => shape_ev0 _ _ _ rfl

theorem movAccMoffs (p : List Pfx) (w : Width) (off : Word) : Statement (.movAccMoffs p w off) := fun _ => by
  cases w <;> exact shape_short _ _ (by simp [leBytes]) rfl

theorem movMoffsAcc (p : List Pfx) (w : Width) (off : Word) : Statement (.movMoffsAcc p w off) := fun _ => by
  cases w <;> exact shape_short _ _ (by simp [leBytes]) rfl

theorem movRbIb (p : List Pfx) (r : Reg8) (i : Byte) : Statement (.movRbIb p r i) :=
  fun _ => shape_short _ _ (by simp) (by cases r <;> rfl)

theorem movRwIw (p : List Pfx) (r : Reg16) (i : Word) : Statement (.movRwIw p r i) :=
  fun _ => shape_short _ _ (by simp [leBytes]) (by cases r <;> rfl)

theorem movRmImm (p : List Pfx) (f : MovImmForm) : Statement (.movRmImm p f) := by
  intro _
  cases f with
  | ebIb e i => exact shape_eb _ _ _ _ (by simp) rfl
  | evIw e i => exact shape_ev _ _ _ _ (by simp [leBytes]) rfl

theorem xchgRm (p : List Pfx) (f : XchgForm) : Statement (.xchgRm p f) := by
  intro _
  cases f with
  | ebGb e g => exact shape_eb0 _ _ _ rfl
  | evGv e g => exact shape_ev0 _ _ _ rfl

theorem xchgAx (p : List Pfx) (r : Reg16) : Statement (.xchgAx p r) :=
  fun _ => shape_short _ _ (by simp) (by cases r <;> rfl)

theorem nop (p : List Pfx) : Statement (.nop p) := fun _ => shape_short _ _ (by simp) rfl

theorem lea (p : List Pfx) (g : Reg16) (m : MemRef) : Statement (.lea p g m) := fun _ => shape_m _ _ _ rfl

theorem lds (p : List Pfx) (g : Reg16) (m : MemRef) : Statement (.lds p g m) := fun _ => shape_m _ _ _ rfl

theorem les (p : List Pfx) (g : Reg16) (m : MemRef) : Statement (.les p g m) := fun _ => shape_m _ _ _ rfl

theorem xlat (p : List Pfx) : Statement (.xlat p) := fun _ => shape_short _ _ (by simp) rfl

theorem pushRw (p : List Pfx) (r : Reg16) : Statement (.pushRw p r) :=
  fun _ => shape_short _ _ (by simp) (by cases r <;> rfl)

theorem pushSr (p : List Pfx) (s : SReg) : Statement (.pushSr p s) :=
  fun _ => shape_short _ _ (by simp) (by cases s <;> rfl)

theorem pushRm (p : List Pfx) (e : Ea Reg16) : Statement (.pushRm p e) := fun _ => shape_ev0 _ _ _ rfl

theorem popRw (p : List Pfx) (r : Reg16) : Statement (.popRw p r) :=
  fun _ => shape_short _ _ (by simp) (by cases r <;> rfl)

theorem popSr (p : List Pfx) (s : SReg) : Statement (.popSr p s) :=
  fun _ => shape_short _ _ (by simp) (by cases s <;> rfl)

theorem popRm (p : List Pfx) (e : Ea Reg16) : Statement (.popRm p e) := fun _ => shape_ev0 _ _ _ rfl

theorem pushf (p : List Pfx) : Statement (.pushf p) := fun _ => shape_short _ _ (by simp) rfl

theorem popf (p : List Pfx) : Statement (.popf p) := fun _ => shape_short _ _ (by simp) rfl

theorem lahf (p : List Pfx) : Statement (.lahf p) := fun _ => shape_short _ _ (by simp) rfl

theorem sahf (p : List Pfx) : Statement (.sahf p) := fun _ => shape_short _ _ (by simp) rfl

theorem inImm (p : List Pfx) (w : Width) (port : Byte) : Statement (.inImm p w port) := fun _ => by
  cases w <;> exact shape_short _ _ (by simp) rfl

theorem inDx (p : List Pfx) (w : Width) : Statement (.inDx p w) := fun _ => by
  cases w <;> exact shape_short _ _ (by simp) rfl

theorem outImm (p : List Pfx) (w : Width) (port : Byte) : Statement (.outImm p w port) := fun _ => by
  cases w <;> exact shape_short _ _ (by simp) rfl

theorem outDx (p : List Pfx) (w : Width) : Statement (.outDx p w) := fun _ => by
  cases w <;> exact shape_short _ _ (by simp) rfl

theorem jo (p : List Pfx) (d : Byte) : Statement (.jo p d) := fun _ => shape_short _ _ (by simp) rfl

theorem jno (p : List Pfx) (d : Byte) : Statement (.jno p d) := fun _ => shape_short _ _ (by simp) rfl

theorem jb (p : List Pfx) (d : Byte) : Statement (.jb p d) := fun _ => shape_short _ _ (by simp) rfl

theorem jnb (p : List Pfx) (d : Byte) : Statement (.jnb p d) := fun _ => shape_short _ _ (by simp) rfl

theorem jz (p : List Pfx) (d : Byte) : Statement (.jz p d) := fun _ => shape_short _ _ (by simp) rfl

theorem jnz (p : List Pfx) (d : Byte) : Statement (.jnz p d) := fun _ => shape_short _ _ (by simp) rfl

theorem jbe (p : List Pfx) (d : Byte) : Statement (.jbe p d) := fun _ => shape_short _ _ (by simp) rfl

theorem ja (p : List Pfx) (d : Byte) : Statement (.ja p d) := fun _ => shape_short _ _ (by simp) rfl

theorem js (p : List Pfx) (d : Byte) : Statement (.js p d) := fun _ => shape_short _ _ (by simp) rfl

theorem jns (p : List Pfx) (d : Byte) : Statement (.jns p d) := fun _ => shape_short _ _ (by simp) rfl

theorem jp (p : List Pfx) (d : Byte) : Statement (.jp p d) := fun _ => shape_short _ _ (by simp) rfl

theorem jnp (p : List Pfx) (d : Byte) : Statement (.jnp p d) := fun _ => shape_short _ _ (by simp) rfl

theorem jl (p : List Pfx) (d : Byte) : Statement (.jl p d) := fun _ => shape_short _ _ (by simp) rfl

theorem jge (p : List Pfx) (d : Byte) : Statement (.jge p d) := fun _ => shape_short _ _ (by simp) rfl

theorem jle (p : List Pfx) (d : Byte) : Statement (.jle p d) := fun _ => shape_short _ _ (by simp) rfl

theorem jg (p : List Pfx) (d : Byte) : Statement (.jg p d) := fun _ => shape_short _ _ (by simp) rfl

theorem jmpShort (p : List Pfx) (d : Byte) : Statement (.jmpShort p d) := fun _ => shape_short _ _ (by simp) rfl

theorem jmpNear (p : List Pfx) (d : Word) : Statement (.jmpNear p d) :=
  fun _ => shape_short _ _ (by simp [leBytes]) rfl

theorem jmpFar (p : List Pfx) (off sel : Word) : Statement (.jmpFar p off sel) :=
  fun _ => shape_short _ _ (by simp [leBytes]) rfl

theorem jmpRm (p : List Pfx) (e : Ea Reg16) : Statement (.jmpRm p e) := fun _ => shape_ev0 _ _ _ rfl

theorem jmpMem (p : List Pfx) (m : MemRef) : Statement (.jmpMem p m) := fun _ => shape_m _ _ _ rfl

theorem loop (p : List Pfx) (d : Byte) : Statement (.loop p d) := fun _ => shape_short _ _ (by simp) rfl

theorem loope (p : List Pfx) (d : Byte) : Statement (.loope p d) := fun _ => shape_short _ _ (by simp) rfl

theorem loopne (p : List Pfx) (d : Byte) : Statement (.loopne p d) := fun _ => shape_short _ _ (by simp) rfl

theorem jcxz (p : List Pfx) (d : Byte) : Statement (.jcxz p d) := fun _ => shape_short _ _ (by simp) rfl

theorem callNear (p : List Pfx) (d : Word) : Statement (.callNear p d) :=
  fun _ => shape_short _ _ (by simp [leBytes]) rfl

theorem callFar (p : List Pfx) (off sel : Word) : Statement (.callFar p off sel) :=
  fun _ => shape_short _ _ (by simp [leBytes]) rfl

theorem callRm (p : List Pfx) (e : Ea Reg16) : Statement (.callRm p e) := fun _ => shape_ev0 _ _ _ rfl

theorem callMem (p : List Pfx) (m : MemRef) : Statement (.callMem p m) := fun _ => shape_m _ _ _ rfl

theorem ret (p : List Pfx) : Statement (.ret p) := fun _ => shape_short _ _ (by simp) rfl

theorem retImm (p : List Pfx) (i : Word) : Statement (.retImm p i) := fun _ => shape_short _ _ (by simp [leBytes]) rfl

theorem retf (p : List Pfx) : Statement (.retf p) := fun _ => shape_short _ _ (by simp) rfl

theorem retfImm (p : List Pfx) (i : Word) : Statement (.retfImm p i) :=
  fun _ => shape_short _ _ (by simp [leBytes]) rfl

theorem int (p : List Pfx) (n : Byte) : Statement (.int p n) := fun _ => shape_short _ _ (by simp) rfl

theorem int3 (p : List Pfx) : Statement (.int3 p) := fun _ => shape_short _ _ (by simp) rfl

theorem into (p : List Pfx) : Statement (.into p) := fun _ => shape_short _ _ (by simp) rfl

theorem iret (p : List Pfx) : Statement (.iret p) := fun _ => shape_short _ _ (by simp) rfl

theorem clc (p : List Pfx) : Statement (.clc p) := fun _ => shape_short _ _ (by simp) rfl

theorem stc (p : List Pfx) : Statement (.stc p) := fun _ => shape_short _ _ (by simp) rfl

theorem cmc (p : List Pfx) : Statement (.cmc p) := fun _ => shape_short _ _ (by simp) rfl

theorem cli (p : List Pfx) : Statement (.cli p) := fun _ => shape_short _ _ (by simp) rfl

theorem sti (p : List Pfx) : Statement (.sti p) := fun _ => shape_short _ _ (by simp) rfl

theorem cld (p : List Pfx) : Statement (.cld p) := fun _ => shape_short _ _ (by simp) rfl

theorem std (p : List Pfx) : Statement (.std p) := fun _ => shape_short _ _ (by simp) rfl

theorem hlt (p : List Pfx) : Statement (.hlt p) := fun _ => shape_short _ _ (by simp) rfl

theorem daa (p : List Pfx) : Statement (.daa p) := fun _ => shape_short _ _ (by simp) rfl

theorem das (p : List Pfx) : Statement (.das p) := fun _ => shape_short _ _ (by simp) rfl

theorem aaa (p : List Pfx) : Statement (.aaa p) := fun _ => shape_short _ _ (by simp) rfl

theorem aas (p : List Pfx) : Statement (.aas p) := fun _ => shape_short _ _ (by simp) rfl

theorem wait (p : List Pfx) : Statement (.wait p) := fun _ => shape_short _ _ (by simp) rfl

theorem movsb (p : List Pfx) : Statement (.movsb p) := fun _ => shape_short _ _ (by simp) rfl

theorem movsw (p : List Pfx) : Statement (.movsw p) := fun _ => shape_short _ _ (by simp) rfl

theorem cmpsb (p : List Pfx) : Statement (.cmpsb p) := fun _ => shape_short _ _ (by simp) rfl

theorem cmpsw (p : List Pfx) : Statement (.cmpsw p) := fun _ => shape_short _ _ (by simp) rfl

theorem stosb (p : List Pfx) : Statement (.stosb p) := fun _ => shape_short _ _ (by simp) rfl

theorem stosw (p : List Pfx) : Statement (.stosw p) := fun _ => shape_short _ _ (by simp) rfl

theorem lodsb (p : List Pfx) : Statement (.lodsb p) := fun _ => shape_short _ _ (by simp) rfl

theorem lodsw (p : List Pfx) : Statement (.lodsw p) := fun _ => shape_short _ _ (by simp) rfl

theorem scasb (p : List Pfx) : Statement (.scasb p) := fun _ => shape_short _ _ (by simp) rfl

theorem scasw (p : List Pfx) : Statement (.scasw p) := fun _ => shape_short _ _ (by simp) rfl

theorem shiftRotate (p : List Pfx) (f : ShiftForm) : Statement (.shiftRotate p f) := fun _ => by
  cases f <;> exact shape_short _ _ (by simp) rfl

theorem aam (p : List Pfx) : Statement (.aam p) := fun _ => shape_short _ _ (by simp) rfl

theorem aad (p : List Pfx) : Statement (.aad p) := fun _ => shape_short _ _ (by simp) rfl

theorem esc (p : List Pfx) (k : Oct) : Statement (.esc p k) := fun _ => shape_short _ _ (by simp) (by cases k <;> rfl)

theorem lock (p : List Pfx) : Statement (.lock p) := fun _ => shape_short _ _ (by simp) rfl

theorem mul (p : List Pfx) (w : Width) (md : Quad) (rm : Oct) : Statement (.mul p w md rm) := fun _ => by
  cases w <;> exact shape_short _ _ (by simp) rfl

theorem imul (p : List Pfx) (w : Width) (md : Quad) (rm : Oct) : Statement (.imul p w md rm) := fun _ => by
  cases w <;> exact shape_short _ _ (by simp) rfl

theorem div (p : List Pfx) (w : Width) (md : Quad) (rm : Oct) : Statement (.div p w md rm) := fun _ => by
  cases w <;> exact shape_short _ _ (by simp) rfl

theorem idiv (p : List Pfx) (w : Width) (md : Quad) (rm : Oct) : Statement (.idiv p w md rm) := fun _ => by
  cases w <;> exact shape_short _ _ (by simp) rfl

theorem segByte (p : List Pfx) (s : SReg) : Statement (.segByte p s) :=
  fun _ => ⟨_, [], rfl, by simp, fun h => by cases h⟩

theorem repneByte (p : List Pfx) : Statement (.repneByte p) := fun _ => ⟨_, [], rfl, by simp, fun h => by cases h⟩

theorem repByte (p : List Pfx) : Statement (.repByte p) := fun _ => ⟨_, [], rfl, by simp, fun h => by cases h⟩

theorem generic (p : List Pfx) (u : UnknownEnc) : Statement (.generic p u) := by
  intro h
  cases u with
  | byte b => exact shape_short _ _ (by simp) (unknownByte_no_prefix b h)
  | group op m => exact shape_short _ _ (by simp) (unknownGroup_no_prefix op m h)

end Sys2Proof.Laws.Encoding
end

