-- ==== Sys2Proof/Laws/Pipeline.lean ====
section
/-! SUPPORT. The parts of a tick: what the fetch, the decoded-instruction queue and the execute stage answer, and what a
step from a state of the invariant can answer. -/

namespace Sys2Proof.Machine

/-! ### Fetch -/

theorem fetchLoop_eq (s : State) (n : Nat) (q : List Byte) (h : q.length + n = Config.pqCapacity) :
    fetchLoop s n q = .ok (q ++ (List.range n).map fun j => s.codeByte (q.length + j)) := by
  induction n generalizing q with
  | zero => simp [fetchLoop]
  | succ n ih =>
    have hq : q.length ≠ Config.pqCapacity := by omega
    simp only [fetchLoop, pqFill, hq, if_false]
    rw [ih _ (by simp; omega)]
    simp [List.range_succ_eq_map, Function.comp_def, Nat.add_assoc, Nat.add_comm 1]

/-- The six bytes a tick fetches (48_pipeline.md R453). -/
def State.fetchedBytes (s : State) : List Byte := (List.range Config.pqCapacity).map s.codeByte

theorem State.fetch_reset (s : State) : s.pqReset.fetchInstructions = .ok (s.withPq s.fetchedBytes) := by
  simp only [State.fetchInstructions, State.pqReset_pq, List.length_nil]
  rw [fetchLoop_eq _ _ _ rfl]
  simp only [List.length_nil, List.nil_append, Nat.zero_add]
  rfl

theorem State.fetchedBytes_length (s : State) : s.fetchedBytes.length = Config.pqCapacity := by
  simp [State.fetchedBytes]

/-! ### The decoded-instruction queue -/

/-- The queue after an instruction has passed through it. -/
def DQueue.passed (q : DQueue) : DQueue := { q with head := (q.head + 1) % q.slots.length }

theorem DQueue.idle_iff (q : DQueue) :
    q.idle = true ↔ q.count = 0 ∧ (∀ x ∈ q.slots, x = none) ∧ q.head < q.slots.length := by
  simp [DQueue.idle, and_assoc]

theorem DQueue.passed_idle (q : DQueue) (h : q.idle = true) : q.passed.idle = true := by
  rw [DQueue.idle_iff] at h ⊢
  exact ⟨h.1, h.2.1, Nat.mod_lt _ (by show 0 < q.slots.length; omega)⟩

/-- Passing through an idle queue moves its head and gives back the instruction (48_pipeline.md R455). -/
theorem State.throughDq_idle (s : State) (d : Decoded) (h : s.dq.idle = true) :
    s.throughDq d = .ok (d, s.withDq s.dq.passed) := by
  rw [DQueue.idle_iff] at h
  obtain ⟨hc, hn, hh⟩ := h
  have hm : (s.dq.head + s.dq.count) % s.dq.slots.length = s.dq.head := by
    rw [hc, Nat.add_zero, Nat.mod_eq_of_lt hh]
  have hf : s.dq.fill s.insAddr d = .ok { s.dq with slots := s.dq.slots.set s.dq.head (some d), count := 1 } := by
    rw [DQueue.fill, if_neg (by omega), hm, hc]
  have hs : (s.dq.slots.set s.dq.head (some d)).set s.dq.head none = s.dq.slots := by
    rw [List.set_set]
    apply List.ext_getElem
    · simp
    · intro k h1 h2
      rw [List.getElem_set]
      split
      · subst k; exact (hn _ (List.getElem_mem h2)).symm
      · rfl
  unfold State.throughDq
  rw [hf]
  simp only [DQueue.fetch, Nat.one_ne_zero, if_false, List.getElem?_set, hh, if_true, hs, List.length_set, DQueue.passed,
    Nat.sub_self]
  rw [hc]

/-- A refused encoding is refused, naming Linear(CS, IP), before anything changes (48_pipeline.md R454). -/
theorem State.afterDecode_refused (s : State) (pq0 : List Byte) (i : Instr) (h : i.isRefused = true) :
    s.afterDecode pq0 i = .refused (.notAdmitted i.opcode i.ext s.insAddr) := by
  have a := exec_answers i s
  rw [State.afterDecode, if_pos h]
  generalize exec i s = r at a
  cases a with
  | next _ _ h' | fault h' _ => rw [h] at h'; cases h'
  | refused _ => rfl

/-- Any other instruction passes through the idle queue, IP moves past it, and it waits or executes
(48_pipeline.md R455 to R458). -/
theorem State.afterDecode_idle (s : State) (pq0 : List Byte) (i : Instr) (h : i.isRefused = false)
    (hd : s.dq.idle = true) :
    s.afterDecode pq0 i =
      if s.stepMode then .next (((s.withDq s.dq.passed).advance i.len).enterWait (s.decodedRecord i) pq0)
      else ((s.withDq s.dq.passed).advance i.len).execute i := by
  rw [State.afterDecode, h, State.throughDq_idle _ _ hd]
  rfl

/-- A tick from the fetch on (48_pipeline.md R453, R454). -/
theorem State.fetchDecode_eq (s : State) :
    s.fetchDecode =
      match decode s.fetchedBytes with
      | none => .fault (.pqUnderflow s.insAddr)
      | some i => ((s.withPq s.fetchedBytes).withStage .decoding).afterDecode s.pq i := by
  rw [State.fetchDecode, State.fetch_reset]; rfl

/-! ### Execute -/

/-- Everything the execute stage can answer for an instruction that is not refused. -/
theorem State.execute_cases (s : State) (i : Instr) (hr : i.isRefused = false) :
    (∃ t, exec i (s.withStage .executing) = .next t ∧ Kept (s.withStage .executing) t ∧
      s.execute i = .next (t.finish s.flags.tf)) ∨
    (s.params.unknownMode = .fault ∧
      s.execute i = .fault (.undefinedInstruction (s.startAddr i.len) i.bytes)) := by
  have a := exec_answers i (s.withStage .executing)
  unfold State.execute
  generalize exec i (s.withStage .executing) = r at a
  cases a with
  | next t k _ => exact .inl ⟨t, rfl, k, rfl⟩
  | fault _ hm => exact .inr ⟨hm, rfl⟩
  | refused h => rw [hr] at h; cases h

/-- The end of a tick keeps what is kept, but for the stage. -/
theorem State.finish_kept (s : State) (tf0 : Bool) : Kept (s.withStage .fetching) (s.finish tf0) := by
  unfold State.finish
  split
  · have k := State.interrupt_kept s 1 .trap
    exact ⟨k.pq, k.dq, k.stepMode, rfl, k.nmiLatched, k.stopRequested, k.params, k.intr, k.undefSeen, k.log, k.wf, k.rom⟩
  · exact Kept.refl _

/-! ### Everything a step can answer with -/

/-- Between fetch and execute, at the state `s` where the tick starts: bytes decoded to an instruction that is not
refused, and the decoded queue passed on `d`, leaving `dq`. -/
structure PassedOn (s : State) (d : Decoded) (dq : DQueue) : Prop where
  passed : ∃ i, decode s.fetchedBytes = some i ∧ i.isRefused = false ∧
    (((s.withStage .fetching).withPq s.fetchedBytes).withStage .decoding).throughDq (s.decodedRecord i) =
      .ok (d, ((((s.withStage .fetching).withPq s.fetchedBytes).withStage .decoding).withDq dq))

/-- Through an idle queue the decoded instruction itself passes. -/
theorem PassedOn.idle {s : State} {d : Decoded} {dq : DQueue} (h : PassedOn s d dq) (hd : s.dq.idle = true) :
    ∃ i, decode s.fetchedBytes = some i ∧ i.isRefused = false ∧ d = s.decodedRecord i ∧ dq = s.dq.passed := by
  obtain ⟨i, h1, h2, h3⟩ := h.passed
  rw [State.throughDq_idle _ _ (by exact hd)] at h3
  have e := Prod.mk.inj (Except.ok.inj h3)
  exact ⟨i, h1, h2, e.1.symm, (congrArg State.dq e.2).symm⟩

/-- The state at the execute stage of a tick that starts at `s`. -/
def State.atExecute (s : State) (dq : DQueue) (len : Nat) (g : Stage) : State :=
  (((s.withPq s.fetchedBytes).withDq dq).advance len).withStage g

/-- Everything a step that answers a next state can have done. -/
inductive Stepped (s : State) : State → Prop where
  | waiting (h : s.isWaiting = true) : Stepped s s
  | unchanged (h : s.isWaiting = false) : Stepped s (s.withStage .fetching)
  | nmi (h : s.isWaiting = false) (hn : s.nmiLatched = true) : Stepped s (s.withStage .fetching).takeNmi
  | intr (h : s.isWaiting = false) (n : Byte) (hn : s.intr = some n) : Stepped s ((s.withStage .fetching).takeIntr n)
  | toWait (h : s.isWaiting = false) (d : Decoded) (dq : DQueue) (hp : PassedOn s d dq) (hm : s.stepMode = true) :
      Stepped s ((s.atExecute dq d.instr.len .decoding).enterWait d s.pq)
  | ran (h : s.isWaiting = false) (d : Decoded) (dq : DQueue) (hp : PassedOn s d dq) (t : State)
      (he : exec d.instr (s.atExecute dq d.instr.len .executing) = .next t) : Stepped s (t.finish s.flags.tf)
  | resumed (d : Decoded) (pq0 : List Byte) (hs : s.stage = .stepWait d pq0 true) (t : State)
      (he : exec d.instr (s.withStage .executing) = .next t) : Stepped s (t.finish s.flags.tf)

theorem State.throughDq_ok {s t : State} {d d' : Decoded} (h : s.throughDq d = .ok (d', t)) : t = s.withDq t.dq := by
  unfold State.throughDq at h
  split at h
  · cases h
  · split at h
    · cases h
    · cases h; rfl

theorem State.execute_next {s t : State} {i : Instr} (h : s.execute i = .next t) :
    ∃ u, exec i (s.withStage .executing) = .next u ∧ t = u.finish s.flags.tf := by
  unfold State.execute at h
  split at h
  · next u e => cases h; exact ⟨u, e, rfl⟩
  · cases h
  · cases h

theorem State.fetchDecode_next {s t : State} (hw : s.isWaiting = false)
    (h : (s.withStage .fetching).fetchDecode = .next t) : Stepped s t := by
  rw [State.fetchDecode_eq] at h
  split at h
  · cases h
  · next i hi =>
    cases hr : i.isRefused with
    | true => rw [State.afterDecode_refused _ _ _ hr] at h; cases h
    | false =>
      unfold State.afterDecode at h
      rw [hr, if_neg (by simp)] at h
      split at h
      · cases h
      · next d u hu =>
        have hu' := State.throughDq_ok hu
        have hp : PassedOn s d u.dq := ⟨i, hi, hr, hu.trans (congrArg (fun x => Except.ok (d, x)) hu')⟩
        have hm : (u.advance d.instr.len).stepMode = s.stepMode := by rw [hu']; rfl
        simp only [hm] at h
        split at h
        · next hs =>
          cases h
          have : (u.advance d.instr.len).enterWait d s.pq = (s.atExecute u.dq d.instr.len .decoding).enterWait d s.pq := by
            conv_lhs => rw [hu']
            rfl
          rw [show (s.withStage Stage.fetching).pq = s.pq from rfl, this]
          exact .toWait hw d _ hp hs
        · obtain ⟨v, hv, rfl⟩ := State.execute_next h
          have e : (u.advance d.instr.len).withStage .executing = s.atExecute u.dq d.instr.len .executing := by
            conv_lhs => rw [hu']
            rfl
          have hf : (u.advance d.instr.len).flags = s.flags := by rw [hu']; rfl
          rw [e] at hv
          rw [hf]
          exact .ran hw d _ hp v hv

/-- A step that answers a next state did one of these. -/
theorem step_next {s t : State} (h : step s = .next t) : Stepped s t := by
  have h' : tick s = .next t := h
  unfold tick at h'
  have start : ∀ (_ : s.isWaiting = false), (s.withStage .fetching).startTick = .next t → Stepped s t := by
    intro hw h
    unfold State.startTick at h
    split at h
    · cases h; exact .unchanged hw
    · split at h
      · next hn => cases h; exact .nmi hw hn
      · split at h
        · next n hn =>
          cases h
          refine .intr hw n ?_
          unfold State.maskableRequest at hn
          split at hn
          · exact hn
          · cases hn
        · split at h
          · cases h; exact .unchanged hw
          · split at h
            · cases h
            · exact State.fetchDecode_next hw h
  split at h'
  · next d _ hd =>
    obtain ⟨u, hu, rfl⟩ := State.execute_next h'
    exact .resumed d _ hd u hu
  · next hd => cases h'; exact .waiting (by unfold State.isWaiting; rw [hd])
  · next hd => exact start (by unfold State.isWaiting; rw [hd]) h'
  · next hd => exact start (by unfold State.isWaiting; rw [hd]) h'
  · next hd => exact start (by unfold State.isWaiting; rw [hd]) h'

/-! ### The run driver -/

/-- Everything a turn of the run driver's loop can answer (48_pipeline.md R460). -/
inductive Turned (s : State) : Turn → Prop where
  | stopped (h : tickResult s = .stopped) : Turned s (.returns .stopped s)
  | fault (e : Fault) (h : tickResult s = .fault e) : Turned s (.returns (.fault e) s.stopState)
  | refused (e : Refusal) (h : tickResult s = .refused e) : Turned s (.returns (.refused e) s.stopState)
  | goesOn (t : State) (h : tick s = .next t) (hs : tickResult s ≠ .stopped) (hf : ∀ e, tickResult s ≠ .fault e)
      (hr : ∀ e, tickResult s ≠ .refused e) : Turned s (.goesOn t)

/-- A tick that answers a next state has neither a fault nor a refusal as its result (48_pipeline.md R459). -/
theorem tickResult_of_next {s t : State} (h : tick s = .next t) :
    (∀ e, tickResult s ≠ .fault e) ∧ ∀ e, tickResult s ≠ .refused e := by
  unfold tickResult
  rw [h]
  dsimp only
  constructor <;> intro e <;> repeat' split
  all_goals exact TickResult.noConfusion

theorem State.turn_turned (s : State) : Turned s s.turn := by
  unfold State.turn
  split
  · next e h => exact .fault e (by unfold tickResult; rw [h])
  · next e h => exact .refused e (by unfold tickResult; rw [h])
  · next t h =>
    split
    · next hs => exact .stopped hs
    · next hs => exact .goesOn t h hs (tickResult_of_next h).1 (tickResult_of_next h).2

/-! ### What a fault or a refusal leaves -/

/-- Taking an idle queue's head back undoes the pass. -/
theorem DQueue.unpass_passed {q : DQueue} (h : q.idle = true) : q.passed.unpass = q := by
  obtain ⟨slots, head, count⟩ := q
  simp only [DQueue.idle, Bool.and_eq_true, decide_eq_true_eq] at h
  have hh : head < slots.length := h.2
  have : ((head + 1) % slots.length + (slots.length - 1)) % slots.length = head := by
    rw [Nat.mod_add_mod, show head + 1 + (slots.length - 1) = head + slots.length by omega, Nat.add_mod_right,
      Nat.mod_eq_of_lt hh]
  simp only [DQueue.unpass, DQueue.passed, this]

/-- At a StepWait that a tick at `s` reached, the notification is what stays (48_pipeline.md R454). -/
theorem State.enterWait_stopState (s : State) (i : Instr) (hd : s.dq.idle = true) :
    ((s.atExecute s.dq.passed i.len .decoding).enterWait (s.decodedRecord i) s.pq).stopState =
      (s.withStage .fetching).record .stepNotify := by
  have e : s.ip + BitVec.ofNat 16 i.len - BitVec.ofNat 16 i.len = s.ip := BitVec.add_sub_cancel _ _
  simp only [State.stopState, State.enterWait, State.atExecute, State.advance, State.record, State.withStage,
    State.withIp, State.withDq, State.withPq, State.withLog, State.decodedRecord, e, DQueue.unpass_passed hd]

end Sys2Proof.Machine
end

