-- ==== Sys2Proof/Machine/Record.lean ====
section
/-! DEFINITION. The other fields of the decoded record (30_encoding.md R140), as functions of the instruction: `w`, `E`,
`G`, `imm`, `imm2`, `disp` and `clocks`. `opcode`, `ext`, `nprefix`, `seg`, `rep`, `len`, `bytes`, `writes_pc` and
`target_static` stand in Sys2Proof/Decode.lean, `kind` in Machine/Templates.lean, and `addr` is a field of
`Decoded`. No meaning reads these functions. -/

namespace Sys2Proof.Machine

/-- An operand descriptor (30_encoding.md R140, R164): `Reg8`, `Reg16`, `SReg`, `Mem` with the segment register it uses
after override, or `Imm`. -/
inductive Operand where
  | reg8 (r : Reg8)
  | reg16 (r : Reg16)
  | sreg (s : SReg)
  | mem (seg : SReg) (m : MemRef)
  | imm (v : Datum)
  deriving DecidableEq, Repr

/-- The descriptor of a memory operand. -/
def memOperand (p : List Pfx) (m : MemRef) : Operand := .mem (segFor p (defaultSegment m)) m

/-- The descriptor of a byte E operand (30_encoding.md R164). -/
def opEb (p : List Pfx) : Ea Reg8 → Operand
  | .reg r => .reg8 r
  | .mem m => memOperand p m

/-- The descriptor of a word E operand (30_encoding.md R164). -/
def opEv (p : List Pfx) : Ea Reg16 → Operand
  | .reg r => .reg16 r
  | .mem m => memOperand p m

/-- `E` and `G` of a two-operand form. -/
def aluOperands (p : List Pfx) : AluForm → Operand × Option Operand
  | .ebGb e g | .gbEb g e => (opEb p e, some (.reg8 g))
  | .evGv e g | .gvEv g e => (opEv p e, some (.reg16 g))
  | .alIb _ => (.reg8 .al, none)
  | .axIw _ => (.reg16 .ax, none)
  | .ebIb e _ | .ebIbAlias e _ => (opEb p e, none)
  | .evIw e _ | .evIbs e _ => (opEv p e, none)

/-- `E` and `G` of a TEST form. -/
def testOperands (p : List Pfx) : TestForm → Operand × Option Operand
  | .ebGb e g => (opEb p e, some (.reg8 g))
  | .evGv e g => (opEv p e, some (.reg16 g))
  | .alIb _ => (.reg8 .al, none)
  | .axIw _ => (.reg16 .ax, none)
  | .ebIb e _ => (opEb p e, none)
  | .evIw e _ => (opEv p e, none)

/-- The accumulator at a width (30_encoding.md R147). -/
def accOperand : Width → Operand
  | .byte => .reg8 .al
  | .word => .reg16 .ax

/-- `E`, the ModRM register-or-memory operand or the implicit destination (30_encoding.md R140), and `G`, the ModRM
`reg` operand or the implicit source. DESIGN CHOICE (log entry 24): where a form has no ModRM byte and no rule says which
of the two holds an operand, what the instruction writes is `E` and what it reads is `G`; the moffs operand is `G` of
0xA0 and 0xA1 and `E` of 0xA2 and 0xA3, DX is `G` of IN and `E` of OUT, and XLAT's table byte, the CX of the loops and
the stack have none. Safe: no meaning reads it. -/
def operandsEG (i : Instr) : Option Operand × Option Operand :=
  match i with
  | .add p f | .lor p f | .adc p f | .sbb p f | .land p f | .sub p f | .lxor p f | .cmp p f =>
    (some (aluOperands p f).1, (aluOperands p f).2)
  | .test p f => (some (testOperands p f).1, (testOperands p f).2)
  | .inc _ (.rw r) | .dec _ (.rw r) => (some (.reg16 r), none)
  | .inc p (.eb e) | .dec p (.eb e) | .neg p (.eb e) | .lnot p (.eb e) => (some (opEb p e), none)
  | .inc p (.ev e) | .dec p (.ev e) | .neg p (.ev e) | .lnot p (.ev e) => (some (opEv p e), none)
  | .cbw _ => (some (.reg16 .ax), some (.reg8 .al))
  | .cwd _ => (some (.reg16 .dx), some (.reg16 .ax))
  | .movRm p (.ebGb e g) | .movRm p (.gbEb g e) => (some (opEb p e), some (.reg8 g))
  | .movRm p (.evGv e g) | .movRm p (.gvEv g e) => (some (opEv p e), some (.reg16 g))
  | .movFromSeg p e s | .movToSeg p s e => (some (opEv p e), some (.sreg s))
  | .movAccMoffs p w off => (some (accOperand w), some (memOperand p (.direct off)))
  | .movMoffsAcc p w off => (some (memOperand p (.direct off)), some (accOperand w))
  | .movRbIb _ r _ => (some (.reg8 r), none)
  | .movRwIw _ r _ => (some (.reg16 r), none)
  | .movRmImm p (.ebIb e _) => (some (opEb p e), none)
  | .movRmImm p (.evIw e _) => (some (opEv p e), none)
  | .xchgRm p (.ebGb e g) => (some (opEb p e), some (.reg8 g))
  | .xchgRm p (.evGv e g) => (some (opEv p e), some (.reg16 g))
  | .xchgAx _ r => (some (.reg16 .ax), some (.reg16 r))
  | .lea p g m | .lds p g m | .les p g m => (some (memOperand p m), some (.reg16 g))
  | .xlat _ => (some (.reg8 .al), none)
  | .pushRw _ r => (none, some (.reg16 r))
  | .pushSr _ s => (none, some (.sreg s))
  | .pushRm p e => (some (opEv p e), none)
  | .popRw _ r => (some (.reg16 r), none)
  | .popSr _ s => (some (.sreg s), none)
  | .popRm p e => (some (opEv p e), none)
  | .lahf _ => (some (.reg8 .ah), none)
  | .sahf _ => (none, some (.reg8 .ah))
  | .inImm _ w _ => (some (accOperand w), none)
  | .inDx _ w => (some (accOperand w), some (.reg16 .dx))
  | .outImm _ w _ => (none, some (accOperand w))
  | .outDx _ w => (some (.reg16 .dx), some (accOperand w))
  | .jmpRm p e | .callRm p e => (some (opEv p e), none)
  | .jmpMem p m | .callMem p m => (some (memOperand p m), none)
  | _ => (none, none)

/-- The width of an ALU form. -/
def aluWidth : AluForm → Width
  | .ebGb _ _ | .gbEb _ _ | .alIb _ | .ebIb _ _ | .ebIbAlias _ _ => .byte
  | .evGv _ _ | .gvEv _ _ | .axIw _ | .evIw _ _ | .evIbs _ _ => .word

/-- `w` (30_encoding.md R145), by the opcode map (R195); `none` where the map gives none. -/
def widthOf (i : Instr) : Option Width :=
  match i with
  | .add _ f | .lor _ f | .adc _ f | .sbb _ f | .land _ f | .sub _ f | .lxor _ f | .cmp _ f => some (aluWidth f)
  | .test _ (.ebGb _ _) | .test _ (.alIb _) | .test _ (.ebIb _ _) => some .byte
  | .test _ (.evGv _ _) | .test _ (.axIw _) | .test _ (.evIw _ _) => some .word
  | .inc _ (.eb _) | .dec _ (.eb _) | .neg _ (.eb _) | .lnot _ (.eb _) => some .byte
  | .inc _ _ | .dec _ _ | .neg _ _ | .lnot _ _ => some .word
  | .movRm _ (.ebGb _ _) | .movRm _ (.gbEb _ _) | .movRbIb _ _ _ | .movRmImm _ (.ebIb _ _) => some .byte
  | .movRm _ _ | .movRwIw _ _ _ | .movRmImm _ _ | .movFromSeg _ _ _ | .movToSeg _ _ _ => some .word
  | .movAccMoffs _ w _ | .movMoffsAcc _ w _ => some w
  | .xchgRm _ (.ebGb _ _) | .xlat _ => some .byte
  | .xchgRm _ _ | .xchgAx _ _ | .nop _ | .lea _ _ _ | .lds _ _ _ | .les _ _ _ => some .word
  | .pushRw _ _ | .pushSr _ _ | .pushRm _ _ | .popRw _ _ | .popSr _ _ | .popRm _ _ => some .word
  | .inImm _ w _ | .inDx _ w | .outImm _ w _ | .outDx _ w => some w
  | .jmpRm _ _ | .jmpMem _ _ | .callRm _ _ | .callMem _ _ => some .word
  | _ => none

/-- `imm`, after the extension its form states (30_encoding.md R166, R167, R169). -/
def immOf (i : Instr) : Option Datum :=
  match i with
  | .add _ f | .lor _ f | .adc _ f | .sbb _ f | .land _ f | .sub _ f | .lxor _ f | .cmp _ f =>
    match f with
    | .alIb i | .ebIb _ i | .ebIbAlias _ i => some (.b i)
    | .axIw i | .evIw _ i => some (.w i)
    | .evIbs _ i => some (.w (sext16 i))
    | .ebGb _ _ | .evGv _ _ | .gbEb _ _ | .gvEv _ _ => none
  | .test _ (.alIb i) | .test _ (.ebIb _ i) => some (.b i)
  | .test _ (.axIw i) | .test _ (.evIw _ i) => some (.w i)
  | .movRbIb _ _ i | .movRmImm _ (.ebIb _ i) => some (.b i)
  | .movRwIw _ _ i | .movRmImm _ (.evIw _ i) => some (.w i)
  | .inImm _ _ i | .outImm _ _ i => some (.w (i.setWidth 16))
  | .jmpFar _ off _ | .callFar _ off _ => some (.w off)
  | .retImm _ i | .retfImm _ i => some (.w i)
  | .int _ n => some (.b n)
  | _ => none

/-- `imm2`: the segment word of a far pointer (30_encoding.md R169). -/
def imm2Of (i : Instr) : Option Word :=
  match i with
  | .jmpFar _ _ sel | .callFar _ _ sel => some sel
  | _ => none

/-- The displacement of a memory operand after sign extension (30_encoding.md R165). -/
def memDisp : MemRef → Option Word
  | .noDisp _ => none
  | .direct a => some a
  | .disp8 _ d => some (sext16 d)
  | .disp16 _ d => some d

/-- The displacement of the operand a descriptor names. -/
def operandDisp : Option Operand → Option Word
  | some (.mem _ m) => memDisp m
  | _ => none

/-- `disp` (30_encoding.md R165, R168): of the memory operand, or the relative displacement after sign extension. -/
def dispOf (i : Instr) : Option Word :=
  match i with
  | .jo _ d | .jno _ d | .jb _ d | .jnb _ d | .jz _ d | .jnz _ d | .jbe _ d | .ja _ d => some (sext16 d)
  | .js _ d | .jns _ d | .jp _ d | .jnp _ d | .jl _ d | .jge _ d | .jle _ d | .jg _ d => some (sext16 d)
  | .jmpShort _ d | .loop _ d | .loope _ d | .loopne _ d | .jcxz _ d => some (sext16 d)
  | .jmpNear _ d | .callNear _ d => some d
  | .movAccMoffs _ _ off | .movMoffsAcc _ _ off => some off
  | i => operandDisp (operandsEG i).1

/-- `clocks = CLOCKS(kind)` (30_encoding.md R140, 70_reset_and_hazards.md R550). -/
def clocksOf (i : Instr) : Nat := Config.clocks i.kind

end Sys2Proof.Machine
end

