-- ==== Sys2Proof/Tests/Slice0.lean ====
section
/-! SUPPORT. Small tests, each of one step from a small state or of one decode; expected results come from
spec/95_test_vectors.md or from the rule named in the comment. After them, a witness for every statement that has a
hypothesis. -/

namespace Sys2Proof.Tests

open Sys2Proof.Machine

/-! ### States -/

/-- No register set. -/
def r0 : Regs := { ax := 0, cx := 0, dx := 0, bx := 0, sp := 0, bp := 0, si := 0, di := 0 }

/-- All segments at 0. -/
def g0 : SRegs := { es := 0, cs := 0, ss := 0, ds := 0 }

/-- All flags clear. -/
def f0 : Flags :=
  { cf := false, pf := false, af := false, zf := false, sf := false, tf := false, ifl := false, df := false, of := false }

/-- A machine at 0000:0100 with these bytes there. -/
def boot (r : Regs) (g : SRegs) (f : Flags) (data : Memory) (code : List Byte) : State :=
  { State.reset with regs := r, sregs := g, ip := 0x100, flags := f, mem := data.load 0x100 code }

/-- One step answers a next state that passes the check. -/
def runs (s : State) (check : State → Bool) : Bool :=
  match step s with
  | .next t => check t
  | .fault _ => false
  | .refused _ => false

/-- One step faults. -/
def faults (s : State) : Option Fault :=
  match step s with
  | .fault r => some r
  | .next _ => none
  | .refused _ => none

/-- One step refuses. -/
def refuses (s : State) : Option Refusal :=
  match step s with
  | .refused r => some r
  | .next _ => none
  | .fault _ => none

/-! ### One step of each instruction -/

-- V-ALU-2
theorem test_add_byte_wraps :
    runs (boot { r0 with ax := 0xFF } g0 f0 [] [0x04, 0x01])
      (fun t => t.reg8 .al == 0x00 && t.ip == 0x0102 && t.flags.cf == true && t.flags.pf == true
        && t.flags.af == true && t.flags.zf == true && t.flags.sf == false && t.flags.of == false) = true := by decide

-- V-AR-1
theorem test_add_memory :
    runs (boot { r0 with bx := 0x200, ax := 0x20 } g0 f0 [(0x200, 0xF0)] [0x00, 0x07])
      (fun t => t.read8 0x00200 == 0x10 && t.flags.cf == true && t.flags.pf == false && t.flags.af == false
        && t.flags.zf == false && t.flags.sf == false && t.flags.of == false
        && t.log == [.memWrite 0x200 (.b 0x10) false]) = true := by decide

-- V-AR-14
theorem test_or_byte :
    runs (boot { r0 with ax := 0x1, bx := 0x80 } g0 f0 [] [0x0A, 0xC3])
      (fun t => t.reg16 .ax == 0x0081 && t.flags.cf == false && t.flags.pf == true && t.flags.zf == false
        && t.flags.sf == true && t.flags.of == false) = true := by decide

-- V-AR-11
theorem test_adc_word :
    runs (boot r0 g0 { f0 with cf := true } [] [0x15, 0xFF, 0xFF])
      (fun t => t.reg16 .ax == 0x0000 && t.flags.cf == true && t.flags.pf == true && t.flags.af == true
        && t.flags.zf == true && t.flags.sf == false && t.flags.of == false) = true := by decide

-- V-ALU-13
theorem test_adc_carry_in :
    runs (boot { r0 with ax := 0x7F } g0 { f0 with cf := true } [] [0x14, 0x00])
      (fun t => t.reg8 .al == 0x80 && t.flags.cf == false && t.flags.pf == false && t.flags.af == true
        && t.flags.zf == false && t.flags.sf == true && t.flags.of == true) = true := by decide

-- V-AR-12
theorem test_sbb_word :
    runs (boot r0 g0 { f0 with cf := true } [] [0x1D, 0x01, 0x00])
      (fun t => t.reg16 .ax == 0xFFFE && t.flags.cf == true && t.flags.pf == false && t.flags.af == true
        && t.flags.zf == false && t.flags.sf == true && t.flags.of == false) = true := by decide

-- V-ALU-30
theorem test_sbb_borrow_through :
    runs (boot r0 g0 { f0 with cf := true } [] [0x1D, 0xFF, 0xFF])
      (fun t => t.reg16 .ax == 0x0000 && t.flags.cf == true && t.flags.pf == true && t.flags.af == true
        && t.flags.zf == true && t.flags.sf == false && t.flags.of == false) = true := by decide

-- V-AR-15
theorem test_and_word :
    runs (boot { r0 with ax := 0x1234 } g0 { f0 with cf := true } [] [0x25, 0xF0, 0x0F])
      (fun t => t.reg16 .ax == 0x0230 && t.flags.cf == false && t.flags.pf == true && t.flags.zf == false
        && t.flags.sf == false && t.flags.of == false && t.draws == 1) = true := by decide

-- V-AR-2
theorem test_sub_sign_extended :
    runs (boot r0 g0 f0 [] [0x83, 0xEB, 0x01])
      (fun t => t.reg16 .bx == 0xFFFF && t.flags.cf == true && t.flags.pf == true && t.flags.af == true
        && t.flags.zf == false && t.flags.sf == true && t.flags.of == false) = true := by decide

-- V-ALU-20
theorem test_sub_overflow :
    runs (boot { r0 with ax := 0x7F } g0 f0 [] [0x2C, 0xFF])
      (fun t => t.reg8 .al == 0x80 && t.flags.cf == true && t.flags.pf == false && t.flags.af == false
        && t.flags.zf == false && t.flags.sf == true && t.flags.of == true) = true := by decide

-- V-AR-13
theorem test_xor_high_byte :
    runs (boot { r0 with ax := 0x1234 } g0 f0 [] [0x30, 0xE4])
      (fun t => t.reg16 .ax == 0x0034 && t.flags.cf == false && t.flags.pf == true && t.flags.zf == true
        && t.flags.sf == false && t.flags.of == false) = true := by decide

-- V-AR-10
theorem test_cmp_word :
    runs (boot r0 g0 f0 [] [0x3D, 0x00, 0x80])
      (fun t => t.reg16 .ax == 0x0000 && t.flags.cf == true && t.flags.pf == true && t.flags.af == false
        && t.flags.zf == false && t.flags.sf == true && t.flags.of == true) = true := by decide

-- V-AR-4
theorem test_cmp_high_low :
    runs (boot { r0 with ax := 0x201 } g0 f0 [] [0x38, 0xC4])
      (fun t => t.reg16 .ax == 0x0201 && t.flags.cf == false && t.flags.pf == false && t.flags.af == false
        && t.flags.zf == false && t.flags.sf == false && t.flags.of == false) = true := by decide

-- V-ALU-53
theorem test_test_byte :
    runs (boot { r0 with ax := 0x80 } g0 { f0 with cf := true } [] [0xA8, 0x80])
      (fun t => t.reg16 .ax == 0x0080 && t.flags.cf == false && t.flags.pf == false && t.flags.zf == false
        && t.flags.sf == true && t.flags.of == false) = true := by decide

-- V-AR-8
theorem test_inc_memory_word :
    runs (boot { r0 with bx := 0x200 } g0 f0 [(0x200, 0xFF), (0x201, 0x7F)] [0xFF, 0x07])
      (fun t => t.read8 0x00200 == 0x00 && t.read8 0x00201 == 0x80 && t.flags.cf == false && t.flags.pf == true
        && t.flags.af == true && t.flags.zf == false && t.flags.sf == true && t.flags.of == true) = true := by decide

-- V-ALU-35
theorem test_inc_keeps_carry :
    runs (boot { r0 with ax := 0xFF } g0 { f0 with cf := true } [] [0xFE, 0xC0])
      (fun t => t.reg8 .al == 0x00 && t.flags.cf == true && t.flags.pf == true && t.flags.af == true
        && t.flags.zf == true && t.flags.sf == false && t.flags.of == false) = true := by decide

-- V-AR-7
theorem test_dec_memory_byte :
    runs (boot { r0 with bx := 0x200 } g0 { f0 with cf := true } [] [0xFE, 0x0F])
      (fun t => t.read8 0x00200 == 0xFF && t.flags.cf == true && t.flags.pf == true && t.flags.af == true
        && t.flags.zf == false && t.flags.sf == true && t.flags.of == false) = true := by decide

-- V-ALU-40
theorem test_dec_word_overflow :
    runs (boot { r0 with ax := 0x8000 } g0 f0 [] [0x48])
      (fun t => t.reg16 .ax == 0x7FFF && t.flags.cf == false && t.flags.pf == true && t.flags.af == true
        && t.flags.zf == false && t.flags.sf == false && t.flags.of == true) = true := by decide

-- V-AR-6
theorem test_neg_memory :
    runs (boot { r0 with bx := 0x200, si := 0x1 } g0 f0 [(0x201, 0x05)] [0xF6, 0x18])
      (fun t => t.read8 0x00201 == 0xFB && t.flags.cf == true && t.flags.pf == false && t.flags.af == true
        && t.flags.zf == false && t.flags.sf == true && t.flags.of == false) = true := by decide

-- V-ALU-46
theorem test_neg_most_negative :
    runs (boot { r0 with ax := 0x8000 } g0 f0 [] [0xF7, 0xD8])
      (fun t => t.reg16 .ax == 0x8000 && t.flags.cf == true && t.flags.pf == true && t.flags.af == false
        && t.flags.zf == false && t.flags.sf == true && t.flags.of == true) = true := by decide

-- V-AR-5
theorem test_not_word :
    runs (boot { r0 with ax := 0xFF } g0 { f0 with cf := true } [] [0xF7, 0xD0])
      (fun t => t.reg16 .ax == 0xFF00 && t.flags.cf == true && t.flags.zf == false && t.flags.sf == false) = true := by decide

-- V-AR-16
theorem test_cbw :
    runs (boot { r0 with ax := 0x127F } g0 f0 [] [0x98])
      (fun t => t.reg16 .ax == 0x007F) = true := by decide

-- V-AR-17, and R286 with the sign set
theorem test_cwd :
    runs (boot { r0 with ax := 0x8000, dx := 0x1234 } g0 f0 [] [0x99])
      (fun t => t.reg16 .dx == 0xFFFF && t.reg16 .ax == 0x8000) = true := by decide

-- V-DT-3
theorem test_mov_byte_registers :
    runs (boot { r0 with ax := 0xAB00 } g0 f0 [] [0x88, 0xE0])
      (fun t => t.reg16 .ax == 0xABAB) = true := by decide

-- V-MEM-11
theorem test_mov_bp_uses_ss :
    runs (boot { r0 with bp := 0x10 } { g0 with ss := 0x3000, ds := 0x4000 } f0 [(0x30012, 0x11), (0x30013, 0x22)] [0x8B, 0x46, 0x02])
      (fun t => t.reg16 .ax == 0x2211) = true := by decide

-- R322
theorem test_mov_from_segment :
    runs (boot r0 { g0 with ds := 0x1234 } f0 [] [0x8C, 0xD8])
      (fun t => t.reg16 .ax == 0x1234) = true := by decide

-- V-DT-5 in register form
theorem test_mov_to_segment :
    runs (boot { r0 with ax := 0x9000 } g0 f0 [] [0x8E, 0xD0])
      (fun t => t.sreg .ss == 0x9000) = true := by decide

-- V-MEM-10
theorem test_mov_al_offset_override :
    runs (boot r0 { g0 with es := 0x1000 } f0 [(0x10200, 0x77)] [0x26, 0xA0, 0x00, 0x02])
      (fun t => t.reg8 .al == 0x77 && t.ip == 0x0104) = true := by decide

-- R325
theorem test_mov_offset_ax :
    runs (boot { r0 with ax := 0x1234 } g0 f0 [] [0xA3, 0x00, 0x02])
      (fun t => t.read8 0x00200 == 0x34 && t.read8 0x00201 == 0x12) = true := by decide

-- R326
theorem test_mov_byte_immediate :
    runs (boot r0 g0 f0 [] [0xB4, 0x12])
      (fun t => t.reg16 .ax == 0x1200) = true := by decide

-- V-DEC-2
theorem test_mov_word_immediate :
    runs (boot r0 g0 f0 [] [0xB8, 0x34, 0x12])
      (fun t => t.reg16 .ax == 0x1234 && t.ip == 0x0103) = true := by decide

-- R328
theorem test_mov_memory_immediate :
    runs (boot { r0 with bx := 0x200 } g0 f0 [] [0xC6, 0x47, 0x02, 0x7F])
      (fun t => t.read8 0x00202 == 0x7F && t.ip == 0x0104) = true := by decide

-- V-MEM-3
theorem test_mov_read_only_high_byte :
    runs (boot r0 { g0 with ds := 0xF000 } f0 [(0xF6000, 0xAA)] [0xC7, 0x06, 0xFF, 0x5F, 0x34, 0x12])
      (fun t => t.read8 0xF5FFF == 0x34 && t.read8 0xF6000 == 0xAA
        && t.log == [.memWrite 0xF5FFF (.w 0x1234) true]) = true := by decide

-- V-DT-1
theorem test_xchg_memory :
    runs (boot { r0 with bx := 0x200, ax := 0x11 } g0 f0 [(0x200, 0x99)] [0x86, 0x07])
      (fun t => t.reg8 .al == 0x99 && t.read8 0x00200 == 0x11 && t.log == [.memWrite 0x200 (.b 0x11) false]) = true := by decide

-- V-DT-2
theorem test_xchg_registers :
    runs (boot { r0 with cx := 0x1, dx := 0x2 } g0 f0 [] [0x87, 0xCA])
      (fun t => t.reg16 .cx == 0x0002 && t.reg16 .dx == 0x0001) = true := by decide

-- R330
theorem test_xchg_ax :
    runs (boot { r0 with ax := 0x1, bx := 0x2 } g0 f0 [] [0x93])
      (fun t => t.reg16 .ax == 0x0002 && t.reg16 .bx == 0x0001) = true := by decide

-- R331
theorem test_nop :
    runs (boot { r0 with ax := 0x7 } g0 f0 [] [0x90])
      (fun t => t.reg16 .ax == 0x0007 && t.ip == 0x0101) = true := by decide

-- R332
theorem test_lea :
    runs (boot { r0 with bx := 0x10, si := 0x0 } { g0 with ds := 0x1234 } f0 [] [0x8D, 0x40, 0xFF])
      (fun t => t.reg16 .ax == 0x000F) = true := by decide

-- R333
theorem test_lds :
    runs (boot r0 g0 f0 [(0x200, 0x10), (0x203, 0x30)] [0xC5, 0x36, 0x00, 0x02])
      (fun t => t.reg16 .si == 0x0010 && t.sreg .ds == 0x3000) = true := by decide

-- R334
theorem test_les :
    runs (boot r0 g0 f0 [(0x200, 0x10), (0x203, 0x30)] [0xC4, 0x3E, 0x00, 0x02])
      (fun t => t.reg16 .di == 0x0010 && t.sreg .es == 0x3000) = true := by decide

-- V-DT-4
theorem test_xlat :
    runs (boot { r0 with bx := 0x10, ax := 0x1 } { g0 with ds := 0x1000 } f0 [(0x11, 0x42), (0x10011, 0x24)] [0xD7])
      (fun t => t.reg8 .al == 0x24) = true := by decide

-- V-DT-4
theorem test_xlat_override :
    runs (boot { r0 with bx := 0x10, ax := 0x1 } { g0 with ds := 0x1000 } f0 [(0x11, 0x42), (0x10011, 0x24)] [0x2E, 0xD7])
      (fun t => t.reg8 .al == 0x42) = true := by decide

-- V-MEM-7
theorem test_push_wraps :
    runs (boot { r0 with ax := 0xBEEF, sp := 0x1 } { g0 with ss := 0x3000 } f0 [] [0x50])
      (fun t => t.reg16 .sp == 0xFFFF && t.read8 0x3FFFF == 0xEF && t.read8 0x40000 == 0xBE) = true := by decide

-- R341
theorem test_push_segment :
    runs (boot { r0 with sp := 0x100 } { g0 with ds := 0x1234 } f0 [] [0x1E])
      (fun t => t.reg16 .sp == 0x00FE && t.read8 0x000FE == 0x34 && t.read8 0x000FF == 0x12) = true := by decide

-- V-DT-7
theorem test_push_sp_new :
    runs (boot { r0 with sp := 0x300 } g0 f0 [] [0xFF, 0xF4])
      (fun t => t.reg16 .sp == 0x02FE && t.read8 0x002FE == 0xFE && t.read8 0x002FF == 0x02) = true := by decide

-- R344
theorem test_pop_register :
    runs (boot { r0 with sp := 0x1FE } g0 f0 [(0x1FE, 0x34), (0x1FF, 0x12)] [0x5B])
      (fun t => t.reg16 .bx == 0x1234 && t.reg16 .sp == 0x0200) = true := by decide

-- V-DT-6
theorem test_pop_sp :
    runs (boot { r0 with sp := 0x1FE } g0 f0 [(0x1FF, 0x30)] [0x5C])
      (fun t => t.reg16 .sp == 0x3000) = true := by decide

-- R345
theorem test_pop_segment :
    runs (boot { r0 with sp := 0x1FE } g0 f0 [(0x1FE, 0x34), (0x1FF, 0x12)] [0x1F])
      (fun t => t.sreg .ds == 0x1234 && t.reg16 .sp == 0x0200) = true := by decide

-- V-DT-8
theorem test_pop_memory :
    runs (boot { r0 with sp := 0x1FE, bp := 0x1FE } g0 f0 [(0x1FE, 0x34), (0x1FF, 0x12)] [0x8F, 0x46, 0x00])
      (fun t => t.reg16 .sp == 0x0200 && t.read8 0x001FE == 0x34 && t.read8 0x001FF == 0x12
        && t.log == [.memWrite 0x1FE (.w 0x1234) false]) = true := by decide

-- V-DT-10
theorem test_pushf :
    runs (boot { r0 with sp := 0x200 } g0 { f0 with cf := true, pf := true, af := true, zf := true, sf := true, ifl := true, df := true, of := true } [] [0x9C])
      (fun t => t.read8 0x001FE == 0xD7 && t.read8 0x001FF == 0xFE) = true := by decide

-- V-PL-17
theorem test_popf :
    runs (boot { r0 with sp := 0x1FE } g0 { f0 with cf := true } [(0x1FF, 0x01)] [0x9D])
      (fun t => t.flags.tf == true && t.flags.cf == false && t.flags.ifl == false) = true := by decide

-- V-DT-10
theorem test_lahf :
    runs (boot r0 g0 { f0 with cf := true, pf := true, af := true, zf := true, sf := true, ifl := true, df := true, of := true } [] [0x9F])
      (fun t => t.reg16 .ax == 0xD700) = true := by decide

-- V-DT-9
theorem test_sahf :
    runs (boot { r0 with ax := 0x2A00 } g0 { f0 with cf := true, zf := true } [] [0x9E])
      (fun t => t.flags.sf == false && t.flags.zf == false && t.flags.af == false && t.flags.pf == false
        && t.flags.cf == false) = true := by decide

-- V-DT-13
theorem test_out_word :
    runs (boot { r0 with ax := 0x1234 } g0 f0 [] [0xE7, 0x80])
      (fun t => t.log == [.portOut 0x80 (.w 0x1234)]) = true := by decide

-- R351
theorem test_out_dx :
    runs (boot { r0 with ax := 0x41, dx := 0x3F8 } g0 f0 [] [0xEE])
      (fun t => t.log == [.portOut 0x3F8 (.b 0x41)]) = true := by decide

-- R350
theorem test_in_spends_a_draw :
    runs (boot { r0 with ax := 0x1200 } g0 f0 [] [0xE4, 0x60])
      (fun t => t.draws == 1 && t.ip == 0x0102) = true := by decide

-- R350
theorem test_in_dx_spends_a_draw :
    runs (boot r0 g0 f0 [] [0xEC])
      (fun t => t.draws == 1 && t.ip == 0x0101) = true := by decide

-- the table of 95_test_vectors.md 2.6
theorem test_jo_taken :
    runs (boot r0 g0 { f0 with sf := true, of := true } [] [0x70, 0x10])
      (fun t => t.ip == 0x0112) = true := by decide

-- the table of 95_test_vectors.md 2.6
theorem test_jo_not_taken :
    runs (boot r0 g0 f0 [] [0x70, 0x10])
      (fun t => t.ip == 0x0102) = true := by decide

-- the table of 95_test_vectors.md 2.6
theorem test_jno_taken :
    runs (boot r0 g0 f0 [] [0x71, 0x10])
      (fun t => t.ip == 0x0112) = true := by decide

-- the table of 95_test_vectors.md 2.6
theorem test_jno_not_taken :
    runs (boot r0 g0 { f0 with sf := true, of := true } [] [0x71, 0x10])
      (fun t => t.ip == 0x0102) = true := by decide

-- the table of 95_test_vectors.md 2.6
theorem test_jb_taken :
    runs (boot r0 g0 { f0 with cf := true } [] [0x72, 0x10])
      (fun t => t.ip == 0x0112) = true := by decide

-- the table of 95_test_vectors.md 2.6
theorem test_jb_not_taken :
    runs (boot r0 g0 f0 [] [0x72, 0x10])
      (fun t => t.ip == 0x0102) = true := by decide

-- the table of 95_test_vectors.md 2.6
theorem test_jnb_taken :
    runs (boot r0 g0 f0 [] [0x73, 0x10])
      (fun t => t.ip == 0x0112) = true := by decide

-- the table of 95_test_vectors.md 2.6
theorem test_jnb_not_taken :
    runs (boot r0 g0 { f0 with cf := true } [] [0x73, 0x10])
      (fun t => t.ip == 0x0102) = true := by decide

-- the table of 95_test_vectors.md 2.6
theorem test_jz_taken :
    runs (boot r0 g0 { f0 with zf := true } [] [0x74, 0x10])
      (fun t => t.ip == 0x0112) = true := by decide

-- the table of 95_test_vectors.md 2.6
theorem test_jz_not_taken :
    runs (boot r0 g0 f0 [] [0x74, 0x10])
      (fun t => t.ip == 0x0102) = true := by decide

-- the table of 95_test_vectors.md 2.6
theorem test_jnz_taken :
    runs (boot r0 g0 f0 [] [0x75, 0x10])
      (fun t => t.ip == 0x0112) = true := by decide

-- the table of 95_test_vectors.md 2.6
theorem test_jnz_not_taken :
    runs (boot r0 g0 { f0 with zf := true } [] [0x75, 0x10])
      (fun t => t.ip == 0x0102) = true := by decide

-- the table of 95_test_vectors.md 2.6
theorem test_jbe_taken :
    runs (boot r0 g0 { f0 with cf := true } [] [0x76, 0x10])
      (fun t => t.ip == 0x0112) = true := by decide

-- the table of 95_test_vectors.md 2.6
theorem test_jbe_not_taken :
    runs (boot r0 g0 f0 [] [0x76, 0x10])
      (fun t => t.ip == 0x0102) = true := by decide

-- the table of 95_test_vectors.md 2.6
theorem test_ja_taken :
    runs (boot r0 g0 f0 [] [0x77, 0x10])
      (fun t => t.ip == 0x0112) = true := by decide

-- the table of 95_test_vectors.md 2.6
theorem test_ja_not_taken :
    runs (boot r0 g0 { f0 with cf := true } [] [0x77, 0x10])
      (fun t => t.ip == 0x0102) = true := by decide

-- the table of 95_test_vectors.md 2.6
theorem test_js_taken :
    runs (boot r0 g0 { f0 with sf := true } [] [0x78, 0x10])
      (fun t => t.ip == 0x0112) = true := by decide

-- the table of 95_test_vectors.md 2.6
theorem test_js_not_taken :
    runs (boot r0 g0 f0 [] [0x78, 0x10])
      (fun t => t.ip == 0x0102) = true := by decide

-- the table of 95_test_vectors.md 2.6
theorem test_jns_taken :
    runs (boot r0 g0 f0 [] [0x79, 0x10])
      (fun t => t.ip == 0x0112) = true := by decide

-- the table of 95_test_vectors.md 2.6
theorem test_jns_not_taken :
    runs (boot r0 g0 { f0 with sf := true } [] [0x79, 0x10])
      (fun t => t.ip == 0x0102) = true := by decide

-- the table of 95_test_vectors.md 2.6
theorem test_jp_taken :
    runs (boot r0 g0 { f0 with pf := true } [] [0x7A, 0x10])
      (fun t => t.ip == 0x0112) = true := by decide

-- the table of 95_test_vectors.md 2.6
theorem test_jp_not_taken :
    runs (boot r0 g0 f0 [] [0x7A, 0x10])
      (fun t => t.ip == 0x0102) = true := by decide

-- the table of 95_test_vectors.md 2.6
theorem test_jnp_taken :
    runs (boot r0 g0 f0 [] [0x7B, 0x10])
      (fun t => t.ip == 0x0112) = true := by decide

-- the table of 95_test_vectors.md 2.6
theorem test_jnp_not_taken :
    runs (boot r0 g0 { f0 with pf := true } [] [0x7B, 0x10])
      (fun t => t.ip == 0x0102) = true := by decide

-- the table of 95_test_vectors.md 2.6
theorem test_jl_taken :
    runs (boot r0 g0 { f0 with sf := true } [] [0x7C, 0x10])
      (fun t => t.ip == 0x0112) = true := by decide

-- the table of 95_test_vectors.md 2.6
theorem test_jl_not_taken :
    runs (boot r0 g0 f0 [] [0x7C, 0x10])
      (fun t => t.ip == 0x0102) = true := by decide

-- the table of 95_test_vectors.md 2.6
theorem test_jge_taken :
    runs (boot r0 g0 f0 [] [0x7D, 0x10])
      (fun t => t.ip == 0x0112) = true := by decide

-- the table of 95_test_vectors.md 2.6
theorem test_jge_not_taken :
    runs (boot r0 g0 { f0 with sf := true } [] [0x7D, 0x10])
      (fun t => t.ip == 0x0102) = true := by decide

-- the table of 95_test_vectors.md 2.6
theorem test_jle_taken :
    runs (boot r0 g0 { f0 with zf := true } [] [0x7E, 0x10])
      (fun t => t.ip == 0x0112) = true := by decide

-- the table of 95_test_vectors.md 2.6
theorem test_jle_not_taken :
    runs (boot r0 g0 f0 [] [0x7E, 0x10])
      (fun t => t.ip == 0x0102) = true := by decide

-- the table of 95_test_vectors.md 2.6
theorem test_jg_taken :
    runs (boot r0 g0 f0 [] [0x7F, 0x10])
      (fun t => t.ip == 0x0112) = true := by decide

-- the table of 95_test_vectors.md 2.6
theorem test_jg_not_taken :
    runs (boot r0 g0 { f0 with zf := true } [] [0x7F, 0x10])
      (fun t => t.ip == 0x0102) = true := by decide

-- V-CT-1 at 0x100
theorem test_jmp_short_self :
    runs (boot r0 g0 f0 [] [0xEB, 0xFE])
      (fun t => t.ip == 0x0100) = true := by decide

-- R374
theorem test_jmp_near :
    runs (boot r0 g0 f0 [] [0xE9, 0x00, 0x01])
      (fun t => t.ip == 0x0203) = true := by decide

-- R375
theorem test_jmp_far :
    runs (boot r0 g0 f0 [] [0xEA, 0x00, 0x01, 0x00, 0x20])
      (fun t => t.ip == 0x0100 && t.sreg .cs == 0x2000) = true := by decide

-- R376
theorem test_jmp_register :
    runs (boot { r0 with ax := 0x1234 } g0 f0 [] [0xFF, 0xE0])
      (fun t => t.ip == 0x1234) = true := by decide

-- R377
theorem test_jmp_far_memory :
    runs (boot r0 g0 f0 [(0x201, 0x01), (0x203, 0x20)] [0xFF, 0x2E, 0x00, 0x02])
      (fun t => t.ip == 0x0100 && t.sreg .cs == 0x2000) = true := by decide

-- V-CT-3
theorem test_loop_wraps :
    runs (boot r0 g0 f0 [] [0xE2, 0xFE])
      (fun t => t.reg16 .cx == 0xFFFF && t.ip == 0x0100) = true := by decide

-- R378
theorem test_loop_ends :
    runs (boot { r0 with cx := 0x1 } g0 f0 [] [0xE2, 0xFE])
      (fun t => t.reg16 .cx == 0x0000 && t.ip == 0x0102) = true := by decide

-- V-CT-4
theorem test_loope :
    runs (boot { r0 with cx := 0x2 } g0 { f0 with zf := true } [] [0xE1, 0xFE])
      (fun t => t.reg16 .cx == 0x0001 && t.ip == 0x0100) = true := by decide

-- V-CT-5
theorem test_loopne :
    runs (boot { r0 with cx := 0x1 } g0 f0 [] [0xE0, 0xFE])
      (fun t => t.reg16 .cx == 0x0000 && t.ip == 0x0102) = true := by decide

-- V-CT-6
theorem test_jcxz :
    runs (boot { r0 with cx := 0x1 } g0 f0 [] [0xE3, 0x05])
      (fun t => t.reg16 .cx == 0x0001 && t.ip == 0x0102) = true := by decide

-- R381
theorem test_jcxz_taken :
    runs (boot r0 g0 f0 [] [0xE3, 0x05])
      (fun t => t.ip == 0x0107) = true := by decide

-- R382
theorem test_call_near :
    runs (boot { r0 with sp := 0x200 } g0 f0 [] [0xE8, 0xFD, 0x00])
      (fun t => t.ip == 0x0200 && t.reg16 .sp == 0x01FE && t.read8 0x001FE == 0x03 && t.read8 0x001FF == 0x01) = true := by decide

-- R383
theorem test_call_far :
    runs (boot { r0 with sp := 0x200 } g0 f0 [] [0x9A, 0x00, 0x01, 0x00, 0x20])
      (fun t => t.ip == 0x0100 && t.sreg .cs == 0x2000 && t.reg16 .sp == 0x01FC && t.read8 0x001FC == 0x05
        && t.read8 0x001FD == 0x01) = true := by decide

-- R384
theorem test_call_register :
    runs (boot { r0 with sp := 0x200, bx := 0x1234 } g0 f0 [] [0xFF, 0xD3])
      (fun t => t.ip == 0x1234 && t.read8 0x001FE == 0x02 && t.read8 0x001FF == 0x01) = true := by decide

-- R385
theorem test_call_far_memory :
    runs (boot { r0 with sp := 0x400 } g0 f0 [(0x201, 0x01), (0x203, 0x20)] [0xFF, 0x1E, 0x00, 0x02])
      (fun t => t.ip == 0x0100 && t.sreg .cs == 0x2000 && t.reg16 .sp == 0x03FC && t.read8 0x003FC == 0x04
        && t.read8 0x003FD == 0x01) = true := by decide

-- R386
theorem test_ret :
    runs (boot { r0 with sp := 0x1FE } g0 f0 [(0x1FE, 0x03), (0x1FF, 0x01)] [0xC3])
      (fun t => t.ip == 0x0103 && t.reg16 .sp == 0x0200) = true := by decide

-- V-CT-7
theorem test_ret_release_wraps :
    runs (boot { r0 with sp := 0xFFFE } g0 f0 [(0xFFFE, 0x03), (0xFFFF, 0x01)] [0xC2, 0x04, 0x00])
      (fun t => t.ip == 0x0103 && t.reg16 .sp == 0x0004) = true := by decide

-- R388
theorem test_retf :
    runs (boot { r0 with sp := 0x1FC } g0 f0 [(0x1FC, 0x05), (0x1FD, 0x01), (0x1FF, 0x20)] [0xCB])
      (fun t => t.ip == 0x0105 && t.sreg .cs == 0x2000 && t.reg16 .sp == 0x0200) = true := by decide

-- R389
theorem test_retf_release :
    runs (boot { r0 with sp := 0x1FC } g0 f0 [(0x1FC, 0x05), (0x1FD, 0x01), (0x1FF, 0x20)] [0xCA, 0x02, 0x00])
      (fun t => t.ip == 0x0105 && t.sreg .cs == 0x2000 && t.reg16 .sp == 0x0202) = true := by decide

-- R390
theorem test_int :
    runs (boot { r0 with sp := 0x200 } g0 { f0 with ifl := true } [(0x85, 0x02)] [0xCD, 0x21])
      (fun t => t.ip == 0x0200 && t.sreg .cs == 0x0000 && t.reg16 .sp == 0x01FA && t.read8 0x001FA == 0x02
        && t.read8 0x001FB == 0x01 && t.read8 0x001FE == 0x02 && t.read8 0x001FF == 0xF2
        && t.flags.ifl == false && t.flags.tf == false) = true := by decide

-- V-CT-9 at 0x100
theorem test_int3 :
    runs (boot { r0 with sp := 0x200 } g0 f0 [(0xD, 0x09)] [0xCC])
      (fun t => t.ip == 0x0900 && t.read8 0x001FA == 0x01 && t.read8 0x001FB == 0x01) = true := by decide

-- V-CT-8 at 0x100
theorem test_into_taken :
    runs (boot { r0 with sp := 0x200 } g0 { f0 with of := true } [(0x11, 0x08)] [0xCE])
      (fun t => t.ip == 0x0800 && t.reg16 .sp == 0x01FA && t.read8 0x001FE == 0x02 && t.read8 0x001FF == 0xF8) = true := by decide

-- R392
theorem test_into_not_taken :
    runs (boot { r0 with sp := 0x200 } g0 f0 [(0x11, 0x08)] [0xCE])
      (fun t => t.ip == 0x0101 && t.reg16 .sp == 0x0200) = true := by decide

-- R393
theorem test_iret :
    runs (boot { r0 with sp := 0x1FA } g0 f0 [(0x1FA, 0x05), (0x1FB, 0x01), (0x1FD, 0x20), (0x1FE, 0x02), (0x1FF, 0xF2)] [0xCF])
      (fun t => t.ip == 0x0105 && t.sreg .cs == 0x2000 && t.reg16 .sp == 0x0200 && t.flags.ifl == true
        && t.flags.cf == false) = true := by decide

-- the table of 95_test_vectors.md 2.7, start B
theorem test_clc :
    runs (boot r0 g0 { f0 with cf := true, pf := true, af := true, zf := true, sf := true, ifl := true, df := true, of := true } [] [0xF8])
      (fun t => t.flags.cf == false && t.flags.ifl == true && t.flags.df == true) = true := by decide

-- the table of 95_test_vectors.md 2.7, start B
theorem test_stc :
    runs (boot r0 g0 { f0 with cf := true, pf := true, af := true, zf := true, sf := true, ifl := true, df := true, of := true } [] [0xF9])
      (fun t => t.flags.cf == true && t.flags.ifl == true && t.flags.df == true) = true := by decide

-- the table of 95_test_vectors.md 2.7, start B
theorem test_cmc :
    runs (boot r0 g0 { f0 with cf := true, pf := true, af := true, zf := true, sf := true, ifl := true, df := true, of := true } [] [0xF5])
      (fun t => t.flags.cf == false && t.flags.ifl == true && t.flags.df == true) = true := by decide

-- the table of 95_test_vectors.md 2.7, start B
theorem test_cli :
    runs (boot r0 g0 { f0 with cf := true, pf := true, af := true, zf := true, sf := true, ifl := true, df := true, of := true } [] [0xFA])
      (fun t => t.flags.cf == true && t.flags.ifl == false && t.flags.df == true) = true := by decide

-- the table of 95_test_vectors.md 2.7, start B
theorem test_sti :
    runs (boot r0 g0 { f0 with cf := true, pf := true, af := true, zf := true, sf := true, ifl := true, df := true, of := true } [] [0xFB])
      (fun t => t.flags.cf == true && t.flags.ifl == true && t.flags.df == true) = true := by decide

-- the table of 95_test_vectors.md 2.7, start B
theorem test_cld :
    runs (boot r0 g0 { f0 with cf := true, pf := true, af := true, zf := true, sf := true, ifl := true, df := true, of := true } [] [0xFC])
      (fun t => t.flags.cf == true && t.flags.ifl == true && t.flags.df == false) = true := by decide

-- the table of 95_test_vectors.md 2.7, start B
theorem test_std :
    runs (boot r0 g0 { f0 with cf := true, pf := true, af := true, zf := true, sf := true, ifl := true, df := true, of := true } [] [0xFD])
      (fun t => t.flags.cf == true && t.flags.ifl == true && t.flags.df == true) = true := by decide

-- the table of 95_test_vectors.md 2.7, start A
theorem test_stc_from_clear :
    runs (boot r0 g0 f0 [] [0xF9])
      (fun t => t.flags.cf == true && t.flags.ifl == false && t.flags.df == false) = true := by decide

-- the table of 95_test_vectors.md 2.7, start A
theorem test_sti_from_clear :
    runs (boot r0 g0 f0 [] [0xFB])
      (fun t => t.flags.cf == false && t.flags.ifl == true && t.flags.df == false) = true := by decide

-- the table of 95_test_vectors.md 2.7, start A
theorem test_std_from_clear :
    runs (boot r0 g0 f0 [] [0xFD])
      (fun t => t.flags.cf == false && t.flags.ifl == false && t.flags.df == true) = true := by decide

-- V-PL-5
theorem test_hlt :
    runs (boot r0 g0 f0 [] [0xF4, 0x90])
      (fun t => t.halted && t.ip == 0x0101) = true := by decide

-- V-PL-13
theorem test_generic_reports :
    runs (boot r0 g0 f0 [] [0x0F, 0x40])
      (fun t => t.undefSeen && t.ip == 0x0101 && t.log == [.undefined 0x100 [0x0F]]) = true := by decide

-- R152
theorem test_fifth_prefix_is_generic :
    runs (boot r0 g0 f0 [] [0x26, 0x26, 0x26, 0x26, 0x26, 0x90])
      (fun t => t.undefSeen && t.ip == 0x0105 && t.log == [.undefined 0x100 [0x26, 0x26, 0x26, 0x26, 0x26]]) = true := by decide

/-! ### Decoding: words written out from the encoding tables -/

-- R195, R196: the eight operations, by bits 5:3 of the opcode (00kkk100) and by the reg field of 0x80 (11kkk000)
theorem test_decode_alu_rows :
    decode [0x04, 0x05] = some (.add [] (.alIb 0x05)) ∧
    decode [0x0C, 0x05] = some (.lor [] (.alIb 0x05)) ∧
    decode [0x14, 0x05] = some (.adc [] (.alIb 0x05)) ∧
    decode [0x1C, 0x05] = some (.sbb [] (.alIb 0x05)) ∧
    decode [0x24, 0x05] = some (.land [] (.alIb 0x05)) ∧
    decode [0x2C, 0x05] = some (.sub [] (.alIb 0x05)) ∧
    decode [0x34, 0x05] = some (.lxor [] (.alIb 0x05)) ∧
    decode [0x3C, 0x05] = some (.cmp [] (.alIb 0x05)) ∧
    decode [0x80, 0xC0, 0x07] = some (.add [] (.ebIb (.reg .al) 0x07)) ∧
    decode [0x80, 0xC8, 0x07] = some (.lor [] (.ebIb (.reg .al) 0x07)) ∧
    decode [0x80, 0xD0, 0x07] = some (.adc [] (.ebIb (.reg .al) 0x07)) ∧
    decode [0x80, 0xD8, 0x07] = some (.sbb [] (.ebIb (.reg .al) 0x07)) ∧
    decode [0x80, 0xE0, 0x07] = some (.land [] (.ebIb (.reg .al) 0x07)) ∧
    decode [0x80, 0xE8, 0x07] = some (.sub [] (.ebIb (.reg .al) 0x07)) ∧
    decode [0x80, 0xF0, 0x07] = some (.lxor [] (.ebIb (.reg .al) 0x07)) ∧
    decode [0x80, 0xF8, 0x07] = some (.cmp [] (.ebIb (.reg .al) 0x07)) := by decide

-- R195, R196, R206: the ten operand forms; V-DEC-4 to V-DEC-7
theorem test_decode_alu_forms :
    decode [0x00, 0xC3] = some (.add [] (.ebGb (.reg .bl) .al)) ∧
    decode [0x01, 0xC3] = some (.add [] (.evGv (.reg .bx) .ax)) ∧
    decode [0x02, 0xC3] = some (.add [] (.gbEb .al (.reg .bl))) ∧
    decode [0x03, 0xC3] = some (.add [] (.gvEv .ax (.reg .bx))) ∧
    decode [0x05, 0x34, 0x12] = some (.add [] (.axIw 0x1234)) ∧
    decode [0x81, 0xC0, 0x34, 0x12] = some (.add [] (.evIw (.reg .ax) 0x1234)) ∧
    decode [0x82, 0xC0, 0x07] = some (.add [] (.ebIbAlias (.reg .al) 0x07)) ∧
    decode [0x83, 0xC0, 0xFF] = some (.add [] (.evIbs (.reg .ax) 0xFF)) ∧
    decode [0x83, 0xC0, 0x7F] = some (.add [] (.evIbs (.reg .ax) 0x7F)) := by decide

-- R160 to R165: V-DEC-8 to V-DEC-13
theorem test_decode_modrm :
    decode [0x8B, 0x07] = some (.movRm [] (.gvEv .ax (.mem (.noDisp .bx)))) ∧
    decode [0x8B, 0x47, 0xFE] = some (.movRm [] (.gvEv .ax (.mem (.disp8 .bx 0xFE)))) ∧
    decode [0x8B, 0x87, 0x34, 0x12] = some (.movRm [] (.gvEv .ax (.mem (.disp16 .bx 0x1234)))) ∧
    decode [0x8B, 0x06, 0x34, 0x12] = some (.movRm [] (.gvEv .ax (.mem (.direct 0x1234)))) ∧
    decode [0x8B, 0xC3] = some (.movRm [] (.gvEv .ax (.reg .bx))) ∧
    decode [0x8B, 0x46, 0x00] = some (.movRm [] (.gvEv .ax (.mem (.disp8 .bp 0x00)))) ∧
    decode [0x8A, 0x00] = some (.movRm [] (.gbEb .al (.mem (.noDisp .bxsi)))) ∧
    decode [0x8A, 0x09] = some (.movRm [] (.gbEb .cl (.mem (.noDisp .bxdi)))) ∧
    decode [0x8A, 0x12] = some (.movRm [] (.gbEb .dl (.mem (.noDisp .bpsi)))) ∧
    decode [0x8A, 0x1B] = some (.movRm [] (.gbEb .bl (.mem (.noDisp .bpdi)))) ∧
    decode [0x8A, 0x24] = some (.movRm [] (.gbEb .ah (.mem (.noDisp .si)))) ∧
    decode [0x8A, 0x2D] = some (.movRm [] (.gbEb .ch (.mem (.noDisp .di)))) ∧
    decode [0x88, 0x77, 0x01] = some (.movRm [] (.ebGb (.mem (.disp8 .bx 0x01)) .dh)) ∧
    decode [0x89, 0xF8] = some (.movRm [] (.evGv (.reg .ax) .di)) := by decide

-- R195, R197 to R199; V-DEC-53, V-DEC-63
theorem test_decode_test_inc_dec_neg_not :
    decode [0x84, 0xC0] = some (.test [] (.ebGb (.reg .al) .al)) ∧
    decode [0x85, 0xD9] = some (.test [] (.evGv (.reg .cx) .bx)) ∧
    decode [0xA8, 0x80] = some (.test [] (.alIb 0x80)) ∧
    decode [0xA9, 0x34, 0x12] = some (.test [] (.axIw 0x1234)) ∧
    decode [0xF6, 0xC0, 0x01] = some (.test [] (.ebIb (.reg .al) 0x01)) ∧
    decode [0xF7, 0xC3, 0x34, 0x12] = some (.test [] (.evIw (.reg .bx) 0x1234)) ∧
    decode [0x43] = some (.inc [] (.rw .bx)) ∧
    decode [0xFE, 0x00] = some (.inc [] (.eb (.mem (.noDisp .bxsi)))) ∧
    decode [0xFF, 0x07] = some (.inc [] (.ev (.mem (.noDisp .bx)))) ∧
    decode [0x4C] = some (.dec [] (.rw .sp)) ∧
    decode [0xFE, 0x0F] = some (.dec [] (.eb (.mem (.noDisp .bx)))) ∧
    decode [0xFF, 0xC9] = some (.dec [] (.ev (.reg .cx))) ∧
    decode [0xF6, 0x18] = some (.neg [] (.eb (.mem (.noDisp .bxsi)))) ∧
    decode [0xF7, 0xD8] = some (.neg [] (.ev (.reg .ax))) ∧
    decode [0xF6, 0xD0] = some (.lnot [] (.eb (.reg .al))) ∧
    decode [0xF7, 0xD0] = some (.lnot [] (.ev (.reg .ax))) ∧
    decode [0x98] = some (.cbw []) ∧
    decode [0x99] = some (.cwd []) := by decide

-- R195, R200 to R202 and the examples of 42_data_transfer.md
theorem test_decode_data_transfer :
    decode [0x8C, 0xD8] = some (.movFromSeg [] (.reg .ax) .ds) ∧
    decode [0x8C, 0xC8] = some (.movFromSeg [] (.reg .ax) .cs) ∧
    decode [0x8E, 0xD8] = some (.movToSeg [] .ds (.reg .ax)) ∧
    decode [0x8E, 0x16, 0x00, 0x02] = some (.movToSeg [] .ss (.mem (.direct 0x0200))) ∧
    decode [0xA0, 0x00, 0x02] = some (.movAccMoffs [] .byte 0x0200) ∧
    decode [0xA1, 0x00, 0x02] = some (.movAccMoffs [] .word 0x0200) ∧
    decode [0xA2, 0x00, 0x02] = some (.movMoffsAcc [] .byte 0x0200) ∧
    decode [0xA3, 0x00, 0x02] = some (.movMoffsAcc [] .word 0x0200) ∧
    decode [0xB4, 0x12] = some (.movRbIb [] .ah 0x12) ∧
    decode [0xB8, 0x34, 0x12] = some (.movRwIw [] .ax 0x1234) ∧
    decode [0xC6, 0x47, 0x02, 0x7F] = some (.movRmImm [] (.ebIb (.mem (.disp8 .bx 0x02)) 0x7F)) ∧
    decode [0xC7, 0x06, 0x84, 0x00, 0x00, 0x02] = some (.movRmImm [] (.evIw (.mem (.direct 0x0084)) 0x0200)) ∧
    decode [0x86, 0x07] = some (.xchgRm [] (.ebGb (.mem (.noDisp .bx)) .al)) ∧
    decode [0x87, 0xCA] = some (.xchgRm [] (.evGv (.reg .dx) .cx)) ∧
    decode [0x93] = some (.xchgAx [] .bx) ∧
    decode [0x90] = some (.nop []) ∧
    decode [0x8D, 0x40, 0xFF] = some (.lea [] .ax (.disp8 .bxsi 0xFF)) ∧
    decode [0xC5, 0x36, 0x00, 0x02] = some (.lds [] .si (.direct 0x0200)) ∧
    decode [0xC4, 0x3E, 0x00, 0x02] = some (.les [] .di (.direct 0x0200)) ∧
    decode [0xD7] = some (.xlat []) := by decide

-- R195 and the examples of 42_data_transfer.md
theorem test_decode_stack_and_ports :
    decode [0x50] = some (.pushRw [] .ax) ∧
    decode [0x54] = some (.pushRw [] .sp) ∧
    decode [0x06] = some (.pushSr [] .es) ∧
    decode [0x0E] = some (.pushSr [] .cs) ∧
    decode [0x16] = some (.pushSr [] .ss) ∧
    decode [0x1E] = some (.pushSr [] .ds) ∧
    decode [0xFF, 0x30] = some (.pushRm [] (.mem (.noDisp .bxsi))) ∧
    decode [0xFF, 0xF4] = some (.pushRm [] (.reg .sp)) ∧
    decode [0x5B] = some (.popRw [] .bx) ∧
    decode [0x07] = some (.popSr [] .es) ∧
    decode [0x17] = some (.popSr [] .ss) ∧
    decode [0x1F] = some (.popSr [] .ds) ∧
    decode [0x8F, 0x00] = some (.popRm [] (.mem (.noDisp .bxsi))) ∧
    decode [0x8F, 0xC4] = some (.popRm [] (.reg .sp)) ∧
    decode [0x9C] = some (.pushf []) ∧
    decode [0x9D] = some (.popf []) ∧
    decode [0x9F] = some (.lahf []) ∧
    decode [0x9E] = some (.sahf []) ∧
    decode [0xE4, 0x60] = some (.inImm [] .byte 0x60) ∧
    decode [0xE5, 0x60] = some (.inImm [] .word 0x60) ∧
    decode [0xEC] = some (.inDx [] .byte) ∧
    decode [0xED] = some (.inDx [] .word) ∧
    decode [0xE6, 0xE9] = some (.outImm [] .byte 0xE9) ∧
    decode [0xE7, 0x80] = some (.outImm [] .word 0x80) ∧
    decode [0xEE] = some (.outDx [] .byte) ∧
    decode [0xEF] = some (.outDx [] .word) := by decide

-- R195, 43_control_transfer.md R371: 0111cccc
theorem test_decode_conditional_jumps :
    decode [0x70, 0x10] = some (.jo [] 0x10) ∧
    decode [0x71, 0x10] = some (.jno [] 0x10) ∧
    decode [0x72, 0x10] = some (.jb [] 0x10) ∧
    decode [0x73, 0x10] = some (.jnb [] 0x10) ∧
    decode [0x74, 0x10] = some (.jz [] 0x10) ∧
    decode [0x75, 0x10] = some (.jnz [] 0x10) ∧
    decode [0x76, 0x10] = some (.jbe [] 0x10) ∧
    decode [0x77, 0x10] = some (.ja [] 0x10) ∧
    decode [0x78, 0x10] = some (.js [] 0x10) ∧
    decode [0x79, 0x10] = some (.jns [] 0x10) ∧
    decode [0x7A, 0x10] = some (.jp [] 0x10) ∧
    decode [0x7B, 0x10] = some (.jnp [] 0x10) ∧
    decode [0x7C, 0x10] = some (.jl [] 0x10) ∧
    decode [0x7D, 0x10] = some (.jge [] 0x10) ∧
    decode [0x7E, 0x10] = some (.jle [] 0x10) ∧
    decode [0x7F, 0x10] = some (.jg [] 0x10) := by decide

-- R195, R199 and the examples of 43_control_transfer.md
theorem test_decode_control_transfer :
    decode [0xEB, 0x10] = some (.jmpShort [] 0x10) ∧
    decode [0xE9, 0x00, 0x01] = some (.jmpNear [] 0x0100) ∧
    decode [0xEA, 0x00, 0x01, 0x00, 0x20] = some (.jmpFar [] 0x0100 0x2000) ∧
    decode [0xFF, 0xE0] = some (.jmpRm [] (.reg .ax)) ∧
    decode [0xFF, 0x2E, 0x00, 0x02] = some (.jmpMem [] (.direct 0x0200)) ∧
    decode [0xE2, 0xFE] = some (.loop [] 0xFE) ∧
    decode [0xE1, 0xFE] = some (.loope [] 0xFE) ∧
    decode [0xE0, 0xFE] = some (.loopne [] 0xFE) ∧
    decode [0xE3, 0x05] = some (.jcxz [] 0x05) ∧
    decode [0xE8, 0xFD, 0x00] = some (.callNear [] 0x00FD) ∧
    decode [0x9A, 0x00, 0x01, 0x00, 0x20] = some (.callFar [] 0x0100 0x2000) ∧
    decode [0xFF, 0xD3] = some (.callRm [] (.reg .bx)) ∧
    decode [0xFF, 0x1E, 0x00, 0x02] = some (.callMem [] (.direct 0x0200)) ∧
    decode [0xC3] = some (.ret []) ∧
    decode [0xC2, 0x04, 0x00] = some (.retImm [] 0x0004) ∧
    decode [0xCB] = some (.retf []) ∧
    decode [0xCA, 0x02, 0x00] = some (.retfImm [] 0x0002) ∧
    decode [0xCD, 0x21] = some (.int [] 0x21) ∧
    decode [0xCC] = some (.int3 []) ∧
    decode [0xCE] = some (.into []) ∧
    decode [0xCF] = some (.iret []) := by decide

-- R195: 0xF4, 0xF5, 0xF8 to 0xFD
theorem test_decode_processor_control :
    decode [0xF8] = some (.clc []) ∧
    decode [0xF9] = some (.stc []) ∧
    decode [0xF5] = some (.cmc []) ∧
    decode [0xFA] = some (.cli []) ∧
    decode [0xFB] = some (.sti []) ∧
    decode [0xFC] = some (.cld []) ∧
    decode [0xFD] = some (.std []) ∧
    decode [0xF4] = some (.hlt []) := by decide

-- R192, R195; V-DEC-51 to V-DEC-61
theorem test_decode_refused :
    decode [0x27] = some (.daa []) ∧
    decode [0x2F] = some (.das []) ∧
    decode [0x37] = some (.aaa []) ∧
    decode [0x3F] = some (.aas []) ∧
    decode [0x9B] = some (.wait []) ∧
    decode [0xA4] = some (.movsb []) ∧
    decode [0xA5] = some (.movsw []) ∧
    decode [0xA6] = some (.cmpsb []) ∧
    decode [0xA7] = some (.cmpsw []) ∧
    decode [0xAA] = some (.stosb []) ∧
    decode [0xAB] = some (.stosw []) ∧
    decode [0xAC] = some (.lodsb []) ∧
    decode [0xAD] = some (.lodsw []) ∧
    decode [0xAE] = some (.scasb []) ∧
    decode [0xAF] = some (.scasw []) ∧
    decode [0xF3, 0xA4] = some (.movsb [.rep]) ∧
    decode [0xD0, 0xE0] = some (.shiftRotate [] .eb1) ∧
    decode [0xD1, 0xE0] = some (.shiftRotate [] .ev1) ∧
    decode [0xD2, 0xE0] = some (.shiftRotate [] .ebCl) ∧
    decode [0xD3, 0xE0] = some (.shiftRotate [] .evCl) ∧
    decode [0xD4] = some (.aam []) ∧
    decode [0xD5] = some (.aad []) ∧
    decode [0xD8, 0x00] = some (.esc [] .o0) ∧
    decode [0xDF] = some (.esc [] .o7) ∧
    decode [0xF0] = some (.lock []) ∧
    decode [0xF6, 0xE0] = some (.mul [] .byte .q3 .o0) ∧
    decode [0xF7, 0x2E] = some (.imul [] .word .q0 .o6) ∧
    decode [0xF6, 0xF3] = some (.div [] .byte .q3 .o3) ∧
    decode [0xF7, 0xF8] = some (.idiv [] .word .q3 .o0) := by decide

-- R152, R180, R191, R197 to R202; V-DEC-32 to V-DEC-45, V-DEC-54
theorem test_decode_generic :
    decode [0x0F] = some (.generic [] (.byte 0x0F)) ∧
    decode [0x60] = some (.generic [] (.byte 0x60)) ∧
    decode [0x6F] = some (.generic [] (.byte 0x6F)) ∧
    decode [0xC0] = some (.generic [] (.byte 0xC0)) ∧
    decode [0xC1] = some (.generic [] (.byte 0xC1)) ∧
    decode [0xC8] = some (.generic [] (.byte 0xC8)) ∧
    decode [0xC9] = some (.generic [] (.byte 0xC9)) ∧
    decode [0xD6] = some (.generic [] (.byte 0xD6)) ∧
    decode [0xF1] = some (.generic [] (.byte 0xF1)) ∧
    decode [0x26, 0x0F] = some (.generic [.seg .es] (.byte 0x0F)) ∧
    decode [0x8F, 0xC8] = some (.generic [] (.group 0x8F 0xC8)) ∧
    decode [0xFE, 0xD0] = some (.generic [] (.group 0xFE 0xD0)) ∧
    decode [0xFF, 0xF8] = some (.generic [] (.group 0xFF 0xF8)) ∧
    decode [0xC6, 0xC8, 0x00] = some (.generic [] (.group 0xC6 0xC8)) ∧
    decode [0x8C, 0xF0] = some (.generic [] (.group 0x8C 0xF0)) ∧
    decode [0x8E, 0xC8] = some (.generic [] (.group 0x8E 0xC8)) ∧
    decode [0x8D, 0xC0] = some (.generic [] (.group 0x8D 0xC0)) ∧
    decode [0xC4, 0xC0] = some (.generic [] (.group 0xC4 0xC0)) ∧
    decode [0xFF, 0xD8] = some (.generic [] (.group 0xFF 0xD8)) ∧
    decode [0xFF, 0xE8] = some (.generic [] (.group 0xFF 0xE8)) ∧
    decode [0xF6, 0xC8, 0x01] = some (.generic [] (.group 0xF6 0xC8)) ∧
    decode [0x26, 0x2E, 0x36, 0x3E, 0x26] = some (.segByte [.seg .es, .seg .cs, .seg .ss, .seg .ds] .es) ∧
    decode [0xF2, 0xF3, 0xF2, 0xF3, 0xF2] = some (.repneByte [.repne, .rep, .repne, .rep]) ∧
    decode [0xF2, 0xF3, 0xF2, 0xF3, 0xF3] = some (.repByte [.repne, .rep, .repne, .rep]) := by decide

-- V-DEC-1, and V-DEC-47: prefixes are read in order and six bytes fit
theorem test_decode_prefixes :
    decode [0x2E, 0x26, 0x04, 0x05] = some (.add [.seg .cs, .seg .es] (.alIb 0x05)) ∧
    decode [0x26, 0xEA, 0x00, 0x01, 0x00, 0x20] = some (.jmpFar [.seg .es] 0x0100 0x2000) := by decide

-- R151: at most four prefixes are taken; R153, R154: the last of each kind is in force
theorem test_prefixes_in_force :
    segOverride [.seg .cs, .rep, .seg .es] = some .es ∧ repInForce [.rep, .seg .cs, .repne] = some .repne ∧
    segOverride [.rep] = none := by decide

-- V-DEC-48 to V-DEC-50: an instruction past the sixth byte underflows
theorem test_decode_underflow :
    decode [0x26, 0x26, 0xEA, 0x00, 0x01, 0x00] = none ∧ decode [0x2E, 0x2E, 0x2E, 0x81, 0x87, 0x34] = none ∧
    decode [0x3E, 0x3E, 0xC7, 0x87, 0x00, 0x01] = none := by decide

-- V-DEC-1 and V-DEC-33: the length counts the prefixes, and a generic instruction is its prefixes and one byte
theorem test_lengths :
    (Instr.add [.seg .cs, .seg .es] (.alIb 0x05)).len = 4 ∧ (Instr.generic [.seg .es] (.byte 0x0F)).len = 2 ∧
    (Instr.generic [] (.group 0xFF 0xF8)).len = 1 := by decide

-- the bytes of a few instructions, from 30_encoding.md R195 and R160
theorem test_encode :
    (Instr.movRmImm [] (.ebIb (.mem (.disp8 .bx 0x02)) 0x7F)).encode = [0xC6, 0x47, 0x02, 0x7F] ∧
    (Instr.callFar [.rep] 0x0100 0x2000).encode = [0xF3, 0x9A, 0x00, 0x01, 0x00, 0x20] ∧
    (Instr.sub [] (.evIbs (.reg .bx) 0x01)).encode = [0x83, 0xEB, 0x01] := by decide

-- rows of spec/opcode_table.json by their `match` values
theorem test_table_words :
    decodeTableWord 8 0xF4 = some (.hlt []) ∧ decodeTableWord 16 0x80C0 = some (.add [] (.ebIb (.reg .al) 0x00)) ∧
    decodeTableWord 16 0xFF20 = some (.jmpRm [] (.mem (.noDisp .bxsi))) := by decide

-- the row that R131's pattern 10xx0 gives (S9)
theorem test_pattern_10xx0 :
    let pat : List PatBit := [.one, .zero, .x, .x, .zero]
    patMask pat = 0b11001 ∧ patValue pat = 0b10000 ∧
    fieldMatches pat 0b10110 = true ∧ fieldMatches pat 0b11000 = false ∧ fieldMatches pat 0b10001 = false ∧
    fieldMatches pat 0b00000 = false := by decide

/-! ### Ill-formed terms are refused -/

/-- No encoding names mod = 00, rm = 110 as a base. -/
def badMem : MemRef := .noDisp .bp

-- 30_encoding.md R162: mod = 00, rm = 110 is the direct address
theorem test_wellformed_refuses_bp_alone :
    badMem.wellFormed = false ∧
    (Instr.add [] (.ebGb (.mem badMem) .al)).wellFormed = false ∧
    (Instr.adc [] (.gbEb .al (.mem badMem))).wellFormed = false ∧
    (Instr.sub [] (.ebIb (.mem badMem) 0)).wellFormed = false ∧
    (Instr.cmp [] (.ebIbAlias (.mem badMem) 0)).wellFormed = false ∧
    (Instr.lor [] (.evGv (.mem badMem) .ax)).wellFormed = false ∧
    (Instr.sbb [] (.gvEv .ax (.mem badMem))).wellFormed = false ∧
    (Instr.land [] (.evIw (.mem badMem) 0)).wellFormed = false ∧
    (Instr.lxor [] (.evIbs (.mem badMem) 0)).wellFormed = false ∧
    (Instr.test [] (.ebGb (.mem badMem) .al)).wellFormed = false ∧
    (Instr.test [] (.evIw (.mem badMem) 0)).wellFormed = false ∧
    (Instr.inc [] (.eb (.mem badMem))).wellFormed = false ∧
    (Instr.dec [] (.ev (.mem badMem))).wellFormed = false ∧
    (Instr.neg [] (.eb (.mem badMem))).wellFormed = false ∧
    (Instr.lnot [] (.ev (.mem badMem))).wellFormed = false ∧
    (Instr.movRm [] (.ebGb (.mem badMem) .al)).wellFormed = false ∧
    (Instr.movFromSeg [] (.mem badMem) .ds).wellFormed = false ∧
    (Instr.movToSeg [] .ds (.mem badMem)).wellFormed = false ∧
    (Instr.movRmImm [] (.ebIb (.mem badMem) 0)).wellFormed = false ∧
    (Instr.xchgRm [] (.evGv (.mem badMem) .ax)).wellFormed = false ∧
    (Instr.lea [] .ax badMem).wellFormed = false ∧ (Instr.lds [] .ax badMem).wellFormed = false ∧
    (Instr.les [] .ax badMem).wellFormed = false ∧ (Instr.pushRm [] (.mem badMem)).wellFormed = false ∧
    (Instr.popRm [] (.mem badMem)).wellFormed = false ∧ (Instr.jmpRm [] (.mem badMem)).wellFormed = false ∧
    (Instr.callRm [] (.mem badMem)).wellFormed = false ∧ (Instr.jmpMem [] badMem).wellFormed = false ∧
    (Instr.callMem [] badMem).wellFormed = false := by decide

-- R201: no MOV into CS; R195: 0x0F is no POP CS; R331: XCHG AX,AX is NOP
theorem test_wellformed_refuses_other_operands :
    (Instr.movToSeg [] .cs (.reg .ax)).wellFormed = false ∧ (Instr.popSr [] .cs).wellFormed = false ∧
    (Instr.xchgAx [] .ax).wellFormed = false ∧ (Instr.generic [] (.byte 0x90)).wellFormed = false ∧
    (Instr.generic [] (.group 0x8F 0xC0)).wellFormed = false ∧
    (Instr.generic [] (.group 0xFF 0x18)).wellFormed = false := by decide

-- R151, R152: at most four prefixes, and a prefix byte is an opcode only after four
theorem test_wellformed_refuses_prefix_chains :
    (Instr.nop [.rep, .rep, .rep, .rep, .rep]).wellFormed = false ∧ (Instr.repByte [.rep]).wellFormed = false ∧
    (Instr.segByte [.rep, .rep, .rep] .es).wellFormed = false ∧ (Instr.repneByte []).wellFormed = false ∧
    (Instr.nop [.rep, .rep, .rep, .rep]).wellFormed = true := by decide

/-! ### The tick -/

/-- NOP at 1000:0010 with a stack at 0000:0200, vectors 1, 2 and 8 at 0700, 0500 and 0600. -/
def plState (f : Flags) (op : Byte) : State :=
  { State.reset with
    regs := { r0 with sp := 0x200 }
    sregs := { g0 with cs := 0x1000 }
    ip := 0x10
    flags := f
    mem := Memory.load [(0x5, 0x07), (0x9, 0x05), (0x21, 0x06)] 0x10010 [op] }

-- V-PL-1
theorem test_nmi :
    runs { plState f0 0x90 with nmiLatched := true }
      (fun t => t.read16 0x1FE == 0xF002 && t.read16 0x1FC == 0x1000 && t.read16 0x1FA == 0x0010
        && t.reg16 .sp == 0x1FA && t.sreg .cs == 0 && t.ip == 0x500 && t.nmiLatched == false
        && t.log.getLast? == some (.intTaken 2 .nmi) && t.log.length == 4) = true := by decide

-- V-PL-2
theorem test_maskable_request :
    runs { plState { f0 with ifl := true, cf := true } 0x90 with intr := some 8 }
      (fun t => t.read16 0x1FE == 0xF203 && t.read16 0x1FC == 0x1000 && t.read16 0x1FA == 0x0010
        && t.sreg .cs == 0 && t.ip == 0x600 && t.flags.ifl == false && t.flags.cf
        && t.log.getLast? == some (.intTaken 8 .intr)) = true := by decide

-- V-PL-3
theorem test_masked_request_waits :
    runs { plState f0 0x90 with intr := some 8 } (fun t => t.ip == 0x11 && t.log == []) = true := by decide

-- V-PL-4
theorem test_nmi_before_request :
    runs { plState { f0 with ifl := true } 0x90 with intr := some 8, nmiLatched := true }
      (fun t => t.read16 0x1FE == 0xF202 && t.ip == 0x500 && t.flags.ifl == false) = true := by decide

-- V-PL-6
theorem test_halted_tick :
    tickResult { plState f0 0x90 with halted := true } = .halted ∧
    runs { plState f0 0x90 with halted := true } (fun t => t == { plState f0 0x90 with halted := true }) = true := by
  decide

-- V-PL-7
theorem test_nmi_wakes_halted :
    runs { plState f0 0x90 with halted := true, nmiLatched := true }
      (fun t => t.halted == false && t.read16 0x1FA == 0x0010 && t.ip == 0x500) = true := by decide

-- V-PL-9
theorem test_stop_before_nmi :
    tickResult { plState f0 0x90 with stopRequested := true, nmiLatched := true } = .stopped ∧
    runs { plState f0 0x90 with stopRequested := true, nmiLatched := true } (fun t => t.nmiLatched) = true := by decide

-- V-PL-10
theorem test_trap_flag_refuses :
    refuses (boot r0 g0 { f0 with tf := true } [] [0x90]) = some (.tfTrapUnmodelled 0x100) := by decide

-- V-PL-11
theorem test_trap_flag_int1 :
    runs { plState { f0 with tf := true } 0x40 with params := { Config.defaultParams with tfMode := .int1 } }
      (fun t => t.reg16 .ax == 1 && t.read16 0x1FE == 0xF102 && t.read16 0x1FC == 0x1000 && t.read16 0x1FA == 0x0011
        && t.sreg .cs == 0 && t.ip == 0x700 && t.flags.tf == false
        && t.log.getLast? == some (.intTaken 1 .trap)) = true := by decide

-- V-PL-12: the wait is notified after the IP advance and before execute
theorem test_step_wait :
    runs { boot r0 g0 f0 [] [0x40] with stepMode := true }
      (fun t => t.log == [.stepNotify] && t.ip == 0x101 && t.reg16 .ax == 0 && t.isWaiting
        && match t.hostAct .resume with
          | some u => runs u fun v => v.reg16 .ax == 1 && v.ip == 0x101 && v.stage == .fetching
          | none => false) = true := by decide

-- V-PL-14
theorem test_unknown_mode_fault :
    faults { boot r0 g0 f0 [] [0x0F, 0x40] with params := { Config.defaultParams with unknownMode := .fault } }
      = some (.undefinedInstruction 0x100 [0x0F]) := by decide

-- V-PL-15, V-DEC-55, V-DEC-57
theorem test_refused_encodings :
    refuses (boot { r0 with ax := 5 } g0 f0 [] [0xF6, 0xE0]) = some (.notAdmitted 0xF6 (some .o4) 0x100) ∧
    refuses (boot r0 g0 f0 [] [0xD0, 0xE0]) = some (.notAdmitted 0xD0 none 0x100) ∧
    refuses (boot r0 g0 f0 [] [0xF3, 0xA4]) = some (.notAdmitted 0xA4 none 0x100) := by decide

-- V-PL-16
theorem test_underflow :
    faults (boot r0 g0 f0 [] [0x26, 0x26, 0xEA, 0, 1, 0, 0x20]) = some (.pqUnderflow 0x100) := by decide

/-! ### Addresses, memory, queues, reset -/

-- V-MEM-1
theorem test_linear :
    linear 0x1234 0x5678 = 0x179B8 ∧ linear 0xFFFF 0x0010 = 0x00000 ∧ linear 0xFFFF 0xFFFF = 0x0FFEF := by decide

-- V-MEM-4
theorem test_read16_wraps :
    ({ State.reset with mem := [(0, 0x12), (0xFFFFF, 0x34)] }).read16 0xFFFFF = 0x1234 := by decide

-- V-MEM-9
theorem test_fetch_wraps :
    runs { State.reset with sregs := { g0 with cs := 0x2000 }, ip := 0xFFFF
                            mem := [(0x20000, 0x34), (0x20001, 0x12), (0x2FFFF, 0xB8)] }
      (fun t => t.reg16 .ax == 0x1234 && t.ip == 2) = true := by decide

-- V-Q-1, V-Q-2
theorem test_prefetch_queue :
    pqPeek 0 [0x10, 0x11, 0x12, 0x13, 0x14, 0x15] 5 = .ok 0x15 ∧
    pqFill 0 [0x10, 0x11, 0x12, 0x13, 0x14, 0x15] 0x16 = .error (.pqOverflow 0) ∧
    pqPeek 0 [] 0 = .error (.pqUnderflow 0) := ⟨rfl, rfl, rfl⟩

/-- A decoded NOP, told apart by its address. -/
def nopAt (a : Addr) : Decoded := { instr := .nop [], addr := a, bytes := [0x90] }

-- V-Q-3
theorem test_decoded_queue_depth1 :
    let q : DQueue := { slots := [none], head := 0, count := 0 }
    let q1 : DQueue := { slots := [some (nopAt 1)], head := 0, count := 1 }
    q.fill 0 (nopAt 1) = .ok q1 ∧ q1.fill 0 (nopAt 2) = .error (.dqFull 0) ∧ q1.fetch 0 = .ok (nopAt 1, q) ∧
    q.fetch 0 = .error (.dqEmpty 0) := ⟨rfl, rfl, rfl, rfl⟩

-- V-Q-4: with two slots, the third instruction wraps to slot 0
theorem test_decoded_queue_depth2 :
    let q : DQueue := { slots := [none, some (nopAt 2)], head := 1, count := 1 }
    q.fill 0 (nopAt 3) = .ok { slots := [some (nopAt 3), some (nopAt 2)], head := 1, count := 2 } := rfl

-- 20_memory.md R83 and log entry 3: writing what an unlisted byte reads as removes the entry
theorem test_memory_canonical :
    Memory.write [(1, 5), (3, 7)] 2 9 = [(1, 5), (2, 9), (3, 7)] ∧ Memory.write [(1, 5), (3, 7)] 3 0 = [(1, 5)] ∧
    Memory.wf [(1, 5), (3, 7)] = true ∧ Memory.wf [(3, 7), (1, 5)] = false ∧ Memory.wf [(1, 0)] = false := by decide

-- log entry 15: with nothing placed, the first step after reset runs the zeros at FFFF:0000, ADD [BX+SI],AL
theorem test_first_step_of_reset :
    runs State.reset (fun t => t.ip == 2 && t.sreg .cs == 0xFFFF) = true := by decide

-- log entry 15: a placed word is the next instruction
theorem test_with_fetch_word :
    runs (State.reset.withFetchWord 8 0xF4) (fun t => t.halted) = true ∧
    runs (State.reset.withFetchWord 16 0x80C0) (fun t => t.ip == 3) = true := by decide

/-! ### Witnesses: states and operands that meet the hypotheses of each statement, each clause at a boundary value -/

section Witnesses

open Sys2Proof.Claims

/-- A step that passes the trivial check answers a next state. -/
theorem next_of_runs {s : State} {c : State → Bool} (h : runs s c = true) : ∃ t, step s = .next t ∧ c t = true := by
  unfold runs at h
  split at h
  · next t e => exact ⟨t, e, h⟩
  · cases h
  · cases h

theorem witness_LinearAddressesAndLittleEndianWordReads :
    (0 : Addr).toNat = ((0xFFFFF : Addr).toNat + 1) % 2 ^ 20 ∧ (1 : Addr).toNat = ((0 : Addr).toNat + 1) % 2 ^ 20 := by
  decide

theorem witness_MemoryWriteStoresBelowRomAndDropsAbove :
    State.reset.mem.wf = true ∧ (0xF6000 : Addr).toNat = ((0xF5FFF : Addr).toNat + 1) % 2 ^ 20 ∧
    (0 : Addr).toNat = ((0xFFFFF : Addr).toNat + 1) % 2 ^ 20 := by decide

-- AL and BL, AH and BH, and a register that neither half lies in
theorem witness_ByteRegistersAreHalvesOfWordRegisters :
    (Oct.o0.toNat < 4 ∧ Oct.o3.toNat < 4) ∧
    (4 ≤ Oct.o4.toNat ∧ Oct.o0.toNat + 4 = Oct.o4.toNat) ∧ (4 ≤ Oct.o7.toNat ∧ Oct.o3.toNat + 4 = Oct.o7.toNat) ∧
    Oct.o7.toNat ≠ Oct.o7.toNat % 4 := by decide

theorem witness_FlagsImageSavesAndRestoresNineFlags :
    Config.defaultParams.legal = true ∧
    (∀ k, k ∉ [1, 3, 5, 12, 13, 14, 15] → (0xF02A : Word).getLsbD k = (0x0000 : Word).getLsbD k) := by
  refine ⟨by decide, fun k hk => ?_⟩
  rcases Nat.lt_or_ge k 16 with h | h
  · interval_cases k <;> first | rfl | exact absurd (by decide) hk
  · rw [BitVec.getLsbD_of_ge _ _ h, BitVec.getLsbD_of_ge _ _ h]

theorem witness_LastSegmentOverrideIsInForce :
    ∀ g, Pfx.seg g ∉ [Pfx.rep, Pfx.repne] := by intro g; cases g <;> decide

theorem witness_PushStoresAndPopReadsAtStackPointer : (boot { r0 with sp := 1 } g0 f0 [] [0x50]).mem.wf = true := by
  decide

theorem witness_PrefetchQueueResetFillAndPeek :
    ([1, 2, 3, 4, 5, 6] : List Byte).length = 6 ∧ ([1, 2, 3, 4, 5] : List Byte).length ≠ 6 ∧
    ([1, 2] : List Byte).length ≤ 2 ∧ 1 < ([1, 2] : List Byte).length := by decide

theorem witness_FetchFillsPrefetchQueueToSixBytes :
    State.reset.pq.length ≤ 6 ∧ ({ State.reset with pq := [1, 2, 3, 4, 5, 6] }).pq.length ≤ 6 := by decide

theorem witness_DecodedQueueFillAndFetch :
    (let q : DQueue := { slots := [some (nopAt 1)], head := 0, count := 1 }
     q.count = q.slots.length ∧ q.count ≠ 0 ∧ q.slots[q.head]? = some (some (nopAt 1))) ∧
    (let q : DQueue := { slots := [none, some (nopAt 1)], head := 1, count := 1 }
     q.count ≠ q.slots.length ∧ (q.head + q.count) % q.slots.length = 0) ∧
    (let q : DQueue := { slots := [none], head := 0, count := 0 }
     q.count = 0 ∧ q.count ≠ q.slots.length) := by decide

theorem witness_AddAndAdcWriteSumAndSixFlags :
    (boot r0 g0 f0 [] [0x04, 0x05]).mem.wf = true ∧ (0xFF80 : Word).toInt = (0x80 : Byte).toInt := by decide

theorem witness_SubSbbAndCmpGiveDifferenceAndSixFlags :
    (boot r0 g0 f0 [] [0x2C, 0x05]).mem.wf = true ∧ (0x007F : Word).toInt = (0x7F : Byte).toInt := by decide

theorem witness_LogicalInstructionsCombineBitsAndClearCarry :
    (boot r0 g0 f0 [] [0x0C, 0x0F]).mem.wf = true ∧ (0xFFFF : Word).toInt = (0xFF : Byte).toInt := by decide

theorem witness_IncAndDecLeaveCarry : (boot r0 g0 { f0 with cf := true } [] [0x40]).mem.wf = true := by decide

theorem witness_NegAndNotWriteNegationAndComplement : (boot r0 g0 f0 [] [0xF6, 0xD8]).mem.wf = true := by decide

theorem witness_MovWritesSourceToDestination : (boot r0 g0 f0 [] [0x88, 0xE0]).mem.wf = true := by decide

theorem witness_MovMovesSegmentRegistersAndDirectOffsets : (boot r0 g0 f0 [] [0x8C, 0xD8]).mem.wf = true := by decide

-- an E operand that is not the other operand, in a register and in memory
theorem witness_XchgSwapsOperandsAndNopChangesNothing :
    (boot r0 g0 f0 [] [0x86, 0x07]).mem.wf = true ∧
    (boot r0 g0 f0 [] [0x86, 0xC4]).loc [] (.reg .ah : Ea Reg8) ≠ .reg .al ∧
    (boot r0 g0 f0 [] [0x86, 0x07]).loc [] (.mem (.noDisp .bx) : Ea Reg8) ≠ .reg .al ∧
    (boot r0 g0 f0 [] [0x87, 0xCA]).loc [] (.reg .dx : Ea Reg16) ≠ .reg .cx ∧
    (Reg8.ah ≠ Reg8.al ∧ (boot r0 g0 f0 [] [0x86, 0xC3]).loc [] (.reg .bl : Ea Reg8) ≠ .reg .ah) := by decide

theorem witness_XlatReadsTableByte :
    let s := boot { r0 with bx := 0xFFFF, ax := 2 } g0 f0 [] [0xD7]
    (1 : Word).toNat = ((s.reg16 .bx).toNat + (s.reg8 .al).toNat) % 2 ^ 16 := by decide

-- a register that is not SP, and both values of PUSH_SP_VALUE
theorem witness_PushStoresOperandAndLowersStackPointer :
    (boot r0 g0 f0 [] [0x54]).mem.wf = true ∧ Reg16.ax ≠ Reg16.sp ∧ (boot r0 g0 f0 [] [0x54]).params.pushSp = .new ∧
    (let s := { boot r0 g0 f0 [] [0x54] with params := { Config.defaultParams with pushSp := .old } }
     s.mem.wf = true ∧ s.params.pushSp = .old) := by decide

theorem witness_PopLoadsOperandAndRaisesStackPointer :
    (boot r0 g0 f0 [] [0x58]).mem.wf = true ∧ Reg16.ax ≠ Reg16.sp ∧
    (boot r0 g0 f0 [] [0x8F, 0xC0]).loc [] (.reg .ax : Ea Reg16) ≠ .reg .sp := by decide

theorem witness_PushfAndPopfMoveTheFlagsImage : (boot r0 g0 f0 [] [0x9C]).mem.wf = true := by decide

-- SP = 1 gives the last word of the segment; SS = F5FF and SP = 0x000F + 2 give the last word below the read-only region
theorem witness_PushThenPopReturnsTheWord :
    (let s := boot { r0 with sp := 1 } g0 f0 [] [0x50]
     s.mem.wf = true ∧ Reg16.ax ≠ Reg16.sp ∧ Reg16.bx ≠ Reg16.sp ∧ s.pushAddr.toNat < 0xF6000 ∧
       (s.pushAddr + 1).toNat < 0xF6000) ∧
    (let s := boot { r0 with sp := 0x10 } { g0 with ss := 0xF5FF } f0 [] [0x50]
     s.pushAddr.toNat = 0xF5FFE ∧ (s.pushAddr + 1).toNat < 0xF6000) := by decide

-- JZ with its condition true and false
theorem witness_ConditionalJumpsFollowTheirFlagConditions :
    jccTable.length = 16 ∧
    (∃ row ∈ jccTable, row.2.1 = 0x74 ∧ row.2.2 { f0 with zf := true } ∧ ¬row.2.2 f0) := by
  refine ⟨rfl, (.jz, 0x74, fun f => f.zf = true), ?_, rfl, rfl, by decide⟩
  simp [jccTable]

-- CX = 1 ends the loop, CX = 0 wraps; ZF both ways
theorem witness_LoopsCountInCxAndJcxzTestsIt :
    ¬((boot { r0 with cx := 1 } g0 f0 [] []).reg16 .cx).toNat ≠ 1 ∧
    (((boot r0 g0 { f0 with zf := true } [] []).reg16 .cx).toNat ≠ 1 ∧
      (boot r0 g0 { f0 with zf := true } [] []).flags.zf = true) ∧
    (((boot r0 g0 f0 [] []).reg16 .cx).toNat ≠ 1 ∧ (boot r0 g0 f0 [] []).flags.zf = false) ∧
    ((boot r0 g0 f0 [] []).reg16 .cx).toNat = 0 ∧ ((boot { r0 with cx := 1 } g0 f0 [] []).reg16 .cx).toNat ≠ 0 := by
  decide

theorem witness_CallsPushReturnAddressAndTransfer : (boot { r0 with sp := 3 } g0 f0 [] [0xE8]).mem.wf = true := by decide

theorem witness_InterruptEntryPushesThreeWordsAndTakesVector :
    (boot { r0 with sp := 5 } g0 f0 [] [0x90]).mem.wf = true := by decide

theorem witness_SoftwareInterruptsEnterTheirVector :
    ((boot { r0 with sp := 0x200 } g0 { f0 with of := true } [] [0xCE]).mem.wf = true ∧
      (boot { r0 with sp := 0x200 } g0 { f0 with of := true } [] [0xCE]).flags.of = true) ∧
    (boot { r0 with sp := 0x200 } g0 f0 [] [0xCE]).flags.of = false := by decide

-- a stack in low memory, and one whose top word ends just below the read-only region
theorem witness_IretUndoesInterruptEntry :
    (let s := boot { r0 with sp := 0x200 } g0 f0 [] [0xCF]
     s.mem.wf = true ∧ s.params.legal = true ∧
       ∀ a ∈ [s.pushAddr, s.pushAddr + 1, pushAddr2 s, pushAddr2 s + 1, pushAddr3 s, pushAddr3 s + 1],
         a.toNat < 0xF6000) ∧
    (let s := boot { r0 with sp := 0x10 } { g0 with ss := 0xF5FF } f0 [] [0xCF]
     (s.pushAddr + 1).toNat = 0xF5FFF) := by
  refine ⟨⟨by decide, by decide, ?_⟩, by decide⟩
  simp only [List.forall_mem_cons]
  exact ⟨by decide, by decide, by decide, by decide, by decide, by decide, fun _ h => by cases h⟩

theorem witness_GenericInstructionReportsOrFaults :
    (boot r0 g0 f0 [] [0x0F]).params.unknownMode = .noopReport ∧
    ({ boot r0 g0 f0 [] [0x0F] with params := { Config.defaultParams with unknownMode := .fault } }).params.unknownMode
      = .fault := by decide

-- the last clause of the statement: an instruction that refuses
theorem witness_RefusedEncodingsRefuseByOpcode :
    exec (.daa []) (boot r0 g0 f0 [] [0x27]) = .refused (.notAdmitted 0x27 none 0x100) := rfl

/-- A tick at NOP that reaches the fetch. -/
def nopState : State := boot r0 g0 f0 [] [0x90]

theorem nopState_reaches : ReachesFetch nopState :=
  ⟨rfl, rfl, rfl, .inl rfl, rfl, .inl rfl⟩

theorem witness_StepRunsTheDecodedInstruction :
    ReachesFetch nopState ∧ nopState.dq.idle = true ∧ nopState.stepMode = false ∧
    decode (fetched nopState) = some (.nop []) ∧ (Instr.nop []).isRefused = false :=
  ⟨nopState_reaches, by decide, rfl, by decide, rfl⟩

theorem witness_StepStopsOnUnderflowAndRefusedEncodings :
    (ReachesFetch (boot r0 g0 f0 [] [0x26, 0x26, 0xEA, 0, 1, 0, 0x20]) ∧
      decode (fetched (boot r0 g0 f0 [] [0x26, 0x26, 0xEA, 0, 1, 0, 0x20])) = none) ∧
    (ReachesFetch (boot r0 g0 f0 [] [0xF6, 0xE0]) ∧
      decode (fetched (boot r0 g0 f0 [] [0xF6, 0xE0])) = some (.mul [] .byte .q3 .o0) ∧
      (Instr.mul [] .byte .q3 .o0).isRefused = true) :=
  ⟨⟨⟨rfl, rfl, rfl, .inl rfl, rfl, .inl rfl⟩, by decide⟩, ⟨rfl, rfl, rfl, .inl rfl, rfl, .inl rfl⟩, by decide, rfl⟩

theorem witness_StepModeWaitsUntilResumedThenExecutes :
    (ReachesFetch { nopState with stepMode := true } ∧ ({ nopState with stepMode := true }).dq.idle = true ∧
      decode (fetched { nopState with stepMode := true }) = some (.nop []) ∧ (Instr.nop []).isRefused = false) ∧
    nopState.isWaiting = false :=
  ⟨⟨⟨rfl, rfl, rfl, .inl rfl, rfl, .inl rfl⟩, by decide, by decide, rfl⟩, rfl⟩

theorem witness_StoppedAndHaltedTicksChangeNothing :
    ({ nopState with stopRequested := true }).stage = .fetching ∧
    (let s := { nopState with halted := true }
     s.stage = .fetching ∧ s.stopRequested = false ∧ s.halted = true ∧ s.nmiLatched = false ∧ s.flags.ifl = false) ∧
    (let s := { boot r0 g0 { f0 with ifl := true } [] [0x90] with halted := true }
     s.halted = true ∧ s.intr = none) := by decide

theorem witness_NmiThenMaskableRequestIsTakenBeforeFetch :
    (let s := { nopState with nmiLatched := true }
     s.mem.wf = true ∧ s.stage = .fetching ∧ s.stopRequested = false ∧ s.nmiLatched = true) ∧
    (let s := { boot r0 g0 { f0 with ifl := true } [] [0x90] with intr := some 8 }
     s.mem.wf = true ∧ s.stage = .fetching ∧ s.nmiLatched = false ∧ s.flags.ifl = true ∧ s.intr = some 8) := by decide

/-- NOP with TF set, under each mode of the trap. -/
def trapState (m : TfMode) : State :=
  { boot r0 g0 { f0 with tf := true } [] [0x90] with params := { Config.defaultParams with tfMode := m } }

theorem witness_TrapFlagFollowsItsMode :
    (let s := trapState .refuse
     s.stage = .fetching ∧ s.stopRequested = false ∧ s.nmiLatched = false ∧ s.flags.ifl = false ∧ s.halted = false ∧
       s.flags.tf = true ∧ s.params.tfMode = .refuse) ∧
    (∀ m ∈ [TfMode.int1, TfMode.ignore],
      (trapState m).dq.idle = true ∧ (trapState m).stepMode = false ∧ (trapState m).mem.wf = true ∧
      decode (fetched (trapState m)) = some (.nop []) ∧ (Instr.nop []).isRefused = false ∧
      exec (.nop []) (advanced (trapState m) (.nop []) .executing) =
        .next (advanced (trapState m) (.nop []) .executing) ∧ (trapState m).params.tfMode = m) := by
  refine ⟨by decide, fun m hm => ?_⟩
  cases m with
  | refuse => exact absurd hm (by decide)
  | int1 => exact ⟨by decide, rfl, by decide, by decide, rfl, rfl, rfl⟩
  | ignore => exact ⟨by decide, rfl, by decide, by decide, rfl, rfl, rfl⟩

-- a run of two ticks that ends in a refusal, and one that a stop request ends at once
theorem witness_RunEndsOnlyAtStopFaultOrRefusal :
    (runTicks 3 (boot r0 g0 f0 [] [0x90, 0x27])).1 = some (.refused (.notAdmitted 0x27 none 0x101)) ∧
    (runTicks 1 { nopState with stopRequested := true }).1 = some .stopped ∧
    (runTicks 1 nopState).1 = none ∧
    ((runHosted [[], [.requestStop]] nopState).map fun x => x.1) = some (some .stopped) ∧
    ((runHosted [[.assertNmi]] nopState).map fun x => x.1) = some none := by decide

-- 48_pipeline.md R470, R472: in a run with step mode armed by the host, a resume lets the second step execute; NMI is not
-- taken as an input during the wait
theorem test_hosted_run :
    ((runHosted [[.toggleStep], [.resume], [.requestStop]] (boot r0 g0 f0 [] [0x40])).map fun x =>
      x.1 == some .stopped && x.2.reg16 .ax == 1 && x.2.log == [.stepNotify]) = some true ∧
    runHosted [[.toggleStep], [.assertNmi]] (boot r0 g0 f0 [] [0x40]) = none ∧
    ((runHosted [[.toggleStep], [], []] (boot r0 g0 f0 [] [0x40])).map fun x =>
      x.1 == none && x.2.reg16 .ax == 0 && x.2.isWaiting) = some true := by decide

-- 48_pipeline.md R454: a fault after a StepWait leaves the state at the tick's start, but for the StepNotify
theorem test_fault_after_step_wait_rolls_back :
    let p := Config.defaultParams
    let s := { boot r0 g0 f0 [] [0x0F] with stepMode := true, params := { p with unknownMode := .fault } }
    (match step s with
      | .next w => (w.hostAct .resume).map fun r =>
          decide (runTicks 1 r = (some (.fault (.undefinedInstruction 0x100 [0x0F])), { s with log := [.stepNotify] }))
      | _ => none) = some true := by decide

-- log entry 26: a stop request made during a StepWait stays after a fault of that tick
theorem test_stop_request_stays_after_fault :
    let p := Config.defaultParams
    let s := { boot r0 g0 f0 [] [0x0F] with stepMode := true, params := { p with unknownMode := .fault } }
    runHosted [[], [.requestStop, .resume]] s =
      some (some (.fault (.undefinedInstruction 0x100 [0x0F])), { s with log := [.stepNotify], stopRequested := true }) := by
  decide

-- POPF sets TF from a clear TF
theorem witness_OnlyListedInstructionsWriteFlags :
    let s := boot { r0 with sp := 0x1FE } g0 f0 [(0x1FF, 1)] [0x9D]
    ∃ t, exec (.popf []) s = .next t ∧ s.flags.tf = false ∧ t.flags.tf = true :=
  ⟨_, rfl, by decide, by decide⟩

theorem witness_OnlyControlTransfersMoveIpAndCs :
    (∃ t, exec (.nop []) nopState = .next t) ∧ (Instr.nop []).writesPc = false ∧ (Instr.nop []).wellFormed = true ∧
    SReg.cs ∉ segmentsWritten (.nop []) :=
  ⟨⟨_, rfl⟩, rfl, by decide, by decide⟩

theorem witness_OnlyStoringInstructionsChangeMemory :
    (∃ t, exec (.cmp [] (.alIb 5)) nopState = .next t) ∧ mayStore (.cmp [] (.alIb 5)) = false :=
  ⟨⟨_, rfl⟩, rfl⟩

-- a store at the first byte of the read-only region
theorem witness_StepKeepsReadOnlyMemory :
    let s := boot { r0 with ax := 0x55 } { g0 with ds := 0xF600 } f0 [] [0xA2, 0x00, 0x00]
    s.mem.wf = true ∧ (∃ t, step s = .next t ∧ (t.ip == 0x103) = true) ∧ 0xF6000 ≤ (0xF6000 : Addr).toNat :=
  ⟨by decide, next_of_runs (by decide), by decide⟩

theorem witness_StepKeepsHostStateAndOnlyAppendsToLog :
    (∃ t, step { nopState with undefSeen := true } = .next t ∧ t.undefSeen = true) ∧
    ({ nopState with undefSeen := true }).undefSeen = true ∧
    (∃ t, step { nopState with stopRequested := true, nmiLatched := true } = .next t ∧ t.nmiLatched = true) :=
  ⟨next_of_runs (by decide), rfl, next_of_runs (by decide)⟩

theorem reset_inv : State.reset.Inv := ⟨by decide, by decide, by decide, by decide, by decide⟩

-- an underflow, an undefined instruction, a refused encoding and a trap flag, each from a state of the invariant
theorem witness_OnlyReachableFaultsAndRefusalsStopAStep :
    (boot r0 g0 f0 [] [0x26, 0x26, 0xEA, 0, 1, 0, 0x20]).Inv ∧
    faults (boot r0 g0 f0 [] [0x26, 0x26, 0xEA, 0, 1, 0, 0x20]) = some (.pqUnderflow 0x100) ∧
    (boot r0 g0 f0 [] [0x27]).Inv ∧
    refuses (boot r0 g0 f0 [] [0x27]) = some (.notAdmitted 0x27 none 0x100) ∧
    (trapState .refuse).Inv ∧ refuses (trapState .refuse) = some (.tfTrapUnmodelled 0x100) := by
  refine ⟨⟨?_, ?_, ?_, ?_, ?_⟩, ?_, ⟨?_, ?_, ?_, ?_, ?_⟩, ?_, ⟨?_, ?_, ?_, ?_, ?_⟩, ?_⟩ <;> decide

theorem witness_DecodeReadsBackEveryEncoding :
    (Instr.repByte [.rep, .rep, .rep, .rep]).wellFormed = true ∧
    (Instr.movRmImm [.seg .es] (.evIw (.mem (.disp16 .bp 0xFFFF)) 0xFFFF)).wellFormed = true := by decide

theorem witness_DecodedInstructionIsTheFirstBytesOfTheQueue :
    decode [0x26, 0xEA, 0x00, 0x01, 0x00, 0x20] = some (.jmpFar [.seg .es] 0x0100 0x2000) := by decide

theorem witness_NoTwoTemplatesAcceptTheSameBytes :
    decode [0xF2, 0x80, 0xF8, 0x07] = some (.cmp [.repne] (.ebIb (.reg .al) 0x07)) ∧
    decode [0x90] = some (.nop []) := by decide

-- 30_encoding.md R140: one kind for each row, whatever the operands; GENERIC for what no row claims
theorem test_kind :
    (Instr.add [] (.alIb 1)).kind = (Instr.add [.rep] (.alIb 2)).kind ∧
    (Instr.add [] (.ebIb (.reg .al) 1)).kind ≠ (Instr.add [] (.ebIbAlias (.reg .al) 1)).kind ∧
    (Instr.segByte [] .es).kind = (Instr.generic [] (.byte 0x0F)).kind := by decide

-- an image of two bytes that ends at the top of memory
theorem witness_ResetAndLoadedStatesSatisfyInvariant :
    State.reset.Inv ∧ State.reset.mem.wf = true ∧
    (0xFFFFE : Addr).toNat + ([0x12, 0x34] : List Byte).length ≤ 2 ^ 20 ∧
    (State.reset.loadImage 0xFFFFE [0x12, 0x34]).read8 0xFFFFF = 0x34 :=
  ⟨reset_inv, by decide⟩

theorem witness_EveryStepKeepsTheInvariant :
    State.reset.Inv ∧ ∃ t, step State.reset = .next t ∧ (t.ip == 2) = true :=
  ⟨reset_inv, next_of_runs (by decide)⟩

theorem witness_HostActsKeepTheInvariant :
    State.reset.Inv ∧ (∃ t, State.reset.hostAct .assertNmi = some t) ∧
    (∃ t, State.reset.hostAct (.answerIntr (some 0xFF)) = some t) ∧ State.reset.isWaiting = false ∧
    ({ State.reset with stage := .stepWait (nopAt 0) [] false } : State).stage = .stepWait (nopAt 0) [] false :=
  ⟨reset_inv, ⟨_, rfl⟩, ⟨_, rfl⟩, rfl, rfl⟩

end Witnesses

end Sys2Proof.Tests
end

section
/-! O51 (00_scope.md R8, 10_state.md R48 to R50, R60): a step keeps what only the host changes. `Kept` says so of one
instruction but also fixes the stage and the queues, which a tick moves; `HostKept` is the part that a whole tick keeps. -/

namespace Sys2Proof.Machine

/-- What a tick leaves to the host, and what it only extends: the latch may be cleared but not set. -/
structure HostKept (s t : State) : Prop where
  params : t.params = s.params
  stepMode : t.stepMode = s.stepMode
  stopRequested : t.stopRequested = s.stopRequested
  intr : t.intr = s.intr
  undefSeen : s.undefSeen = true → t.undefSeen = true
  nmiLatched : t.nmiLatched = true → s.nmiLatched = true
  log : s.log <+: t.log

theorem HostKept.refl (s : State) : HostKept s s := ⟨rfl, rfl, rfl, rfl, id, id, List.prefix_rfl⟩

theorem HostKept.trans {s t u : State} (h : HostKept s t) (k : HostKept t u) : HostKept s u :=
  ⟨k.params.trans h.params, k.stepMode.trans h.stepMode, k.stopRequested.trans h.stopRequested, k.intr.trans h.intr,
    fun e => k.undefSeen (h.undefSeen e), fun e => h.nmiLatched (k.nmiLatched e), h.log.trans k.log⟩

/-- What keeps the pipeline's state too keeps the host's. -/
theorem Kept.hostKept {s t : State} (h : Kept s t) : HostKept s t :=
  ⟨h.params, h.stepMode, h.stopRequested, h.intr, h.undefSeen, fun e => h.nmiLatched ▸ e, h.log⟩

theorem State.withStage_hostKept (s : State) (g : Stage) : HostKept s (s.withStage g) :=
  ⟨rfl, rfl, rfl, rfl, id, id, List.prefix_rfl⟩

theorem State.atExecute_hostKept (s : State) (dq : DQueue) (len : Nat) (g : Stage) :
    HostKept s (s.atExecute dq len g) :=
  ⟨rfl, rfl, rfl, rfl, id, id, List.prefix_rfl⟩

/-- Taking an NMI clears the latch. -/
theorem State.withNmi_false_hostKept (s : State) : HostKept s (s.withNmi false) :=
  ⟨rfl, rfl, rfl, rfl, id, nofun, List.prefix_rfl⟩

theorem State.takeNmi_hostKept (s : State) : HostKept s s.takeNmi :=
  (State.withNmi_false_hostKept s).trans (State.interrupt_kept _ _ _).hostKept

theorem State.takeIntr_hostKept (s : State) (n : Byte) : HostKept s (s.takeIntr n) :=
  (State.interrupt_kept s n .intr).hostKept

theorem State.enterWait_hostKept (s : State) (d : Decoded) (pq0 : List Byte) : HostKept s (s.enterWait d pq0) :=
  (State.withStage_hostKept s _).trans (State.record_kept _ _).hostKept

theorem State.finish_hostKept (s : State) (tf0 : Bool) : HostKept s (s.finish tf0) :=
  (State.withStage_hostKept s .fetching).trans (State.finish_kept s tf0).hostKept

/-- The execute stage with what ends the tick after it. -/
theorem exec_finish_hostKept {i : Instr} {s t : State} (h : exec i s = .next t) (tf0 : Bool) :
    HostKept s (t.finish tf0) :=
  (exec_kept h).hostKept.trans (State.finish_hostKept t tf0)

theorem Stepped.hostKept {s t : State} (h : Stepped s t) : HostKept s t := by
  cases h with
  | waiting => exact .refl s
  | unchanged => exact State.withStage_hostKept s _
  | nmi => exact (State.withStage_hostKept s _).trans (State.takeNmi_hostKept _)
  | intr _ n => exact (State.withStage_hostKept s _).trans (State.takeIntr_hostKept _ n)
  | toWait _ d dq => exact (State.atExecute_hostKept s dq _ _).trans (State.enterWait_hostKept _ d _)
  | ran _ d dq _ u he => exact (State.atExecute_hostKept s dq _ _).trans (exec_finish_hostKept he _)
  | resumed d pq0 _ u he => exact (State.withStage_hostKept s _).trans (exec_finish_hostKept he _)

/-- Settles O51: each of the things a step can have done (`Stepped`) keeps what only the host changes. -/
theorem stepKeepsHostStateAndOnlyAppendsToLog : Obligations.StepKeepsHostStateAndOnlyAppendsToLog := by
  unfold Obligations.StepKeepsHostStateAndOnlyAppendsToLog
  intro s t h
  obtain ⟨hparams, hmode, hstop, hintr, hundef, hnmi, hlog⟩ := (step_next h).hostKept
  exact ⟨hparams, hmode, hstop, hintr, hundef, hnmi, hlog⟩

end Sys2Proof.Machine
end

section
/-! What decode gives is well-formed (30_encoding.md R141, R142): a rule per field reader, the opcode map quadrant by
quadrant, then the chain of prefixes. -/

namespace Sys2Proof

/-! ### The fields of a ModRM byte as numbers -/

theorem Oct.ofBits_toNat (v : BitVec 3) : (Oct.ofBits v).toNat = v.toNat := by
  revert v; decide

theorem Quad.ofBits_toNat (v : BitVec 2) : (Quad.ofBits v).toNat = v.toNat := by
  revert v; decide

theorem mid3_toNat (m : Byte) : (mid3 m).toNat = m.toNat / 8 % 8 := by
  rw [mid3, Oct.ofBits_toNat, BitVec.extractLsb'_toNat, Nat.shiftRight_eq_div_pow]

theorem top2_toNat (m : Byte) : (top2 m).toNat = m.toNat / 64 := by
  rw [top2, Quad.ofBits_toNat, BitVec.extractLsb'_toNat, Nat.shiftRight_eq_div_pow]
  have := m.isLt
  omega

/-- The segment codes 4 to 7 name no register. -/
theorem SReg.ofOct_none {g : Oct} (h : SReg.ofOct g = none) : 4 ≤ g.toNat := by
  cases g with
  | o0 | o1 | o2 | o3 => cases h
  | o4 | o5 | o6 | o7 => decide

/-- The segment code 1 names CS. -/
theorem SReg.ofOct_cs {g : Oct} (h : SReg.ofOct g = some .cs) : g.toNat = 1 := by
  cases g with
  | o1 => rfl
  | o0 | o2 | o3 | o4 | o5 | o6 | o7 => cases h

theorem Oct.toNat_ne_zero {g : Oct} (h : g ≠ .o0) : g.toNat ≠ 0 := by
  cases g with
  | o0 => exact absurd rfl h
  | o1 | o2 | o3 | o4 | o5 | o6 | o7 => decide

/-! ### What a field reader gives -/

section Readers

variable {P : Instr → Prop} {t : List Byte}

theorem with8_forall {f : Byte → Instr} (h : ∀ v, P (f v)) : ∀ i ∈ with8 t f, P i := by
  simp only [with8, Option.mem_map]
  rintro _ ⟨⟨v, u⟩, -, rfl⟩
  exact h v

theorem with16_forall {f : Word → Instr} (h : ∀ v, P (f v)) : ∀ i ∈ with16 t f, P i := by
  simp only [with16, Option.mem_map]
  rintro _ ⟨⟨v, u⟩, -, rfl⟩
  exact h v

theorem withPtr_forall {f : Word → Word → Instr} (h : ∀ off sel, P (f off sel)) : ∀ i ∈ withPtr t f, P i := by
  simp only [withPtr, Option.mem_def, Option.bind_eq_some_iff, Option.map_eq_some_iff]
  rintro _ ⟨⟨off, u⟩, -, ⟨sel, u'⟩, -, rfl⟩
  exact h off sel

theorem withRM_forall {f : Oct → Ea Oct → Instr} (h : ∀ g e, e.wellFormed = true → P (f g e)) :
    ∀ i ∈ withRM t f, P i := by
  simp only [withRM, Option.mem_map]
  rintro _ ⟨⟨g, e, u⟩, hm, rfl⟩
  exact h g e (takeModRM_some hm).1

theorem withRM8_forall {f : Oct → Ea Oct → Byte → Instr} (h : ∀ g e v, e.wellFormed = true → P (f g e v)) :
    ∀ i ∈ withRM8 t f, P i := by
  simp only [withRM8, Option.mem_def, Option.bind_eq_some_iff, Option.map_eq_some_iff]
  rintro _ ⟨⟨g, e, u⟩, hm, ⟨v, u'⟩, -, rfl⟩
  exact h g e v (takeModRM_some hm).1

theorem withRM16_forall {f : Oct → Ea Oct → Word → Instr} (h : ∀ g e v, e.wellFormed = true → P (f g e v)) :
    ∀ i ∈ withRM16 t f, P i := by
  simp only [withRM16, Option.mem_def, Option.bind_eq_some_iff, Option.map_eq_some_iff]
  rintro _ ⟨⟨g, e, u⟩, hm, ⟨v, u'⟩, -, rfl⟩
  exact h g e v (takeModRM_some hm).1

/-- With mod = 11 a ModRM byte gives a register, otherwise memory. -/
theorem takeModRM_mem {m : Byte} {g : Oct} {e : Ea Oct} {u : List Byte} (hx : top2 m ≠ .q3)
    (h : takeModRM (m :: t) = some (g, e, u)) : ∃ r, e = .mem r := by
  have hq := (takeModRM_some h).2
  cases e with
  | mem r => exact ⟨r, rfl⟩
  | reg r =>
    have hm : m = octal .q3 g r := (List.cons.inj hq).1
    exact absurd (by rw [hm, top2_octal]) hx

/-- A memory-only form, or the unknown encoding of mod = 11 (30_encoding.md R202). -/
theorem withMem_forall {p : List Pfx} {op : Byte} {f : Oct → MemRef → Instr}
    (hq : ∀ m u, t = m :: u → top2 m = .q3 → P (.generic p (.group op m)))
    (h : ∀ g r, r.wellFormed = true → P (f g r)) : ∀ i ∈ withMem p op t f, P i := by
  intro i hi
  cases t with
  | nil => cases hi
  | cons m u =>
    by_cases hx : top2 m = .q3
    · simp only [withMem, hx, Option.mem_def, Option.some.injEq] at hi
      exact hi ▸ hq m u rfl hx
    · simp only [withMem, Option.mem_def, Option.map_eq_some_iff] at hi
      obtain ⟨⟨g, e, v⟩, he, rfl⟩ := hi
      obtain ⟨r, rfl⟩ := takeModRM_mem hx he
      exact h g r (takeModRM_some he).1

/-- A single-member group: the template at reg = 0, the unknown encoding otherwise (30_encoding.md R200). -/
theorem onlyReg0_forall {p : List Pfx} {op : Byte} {k : Option Instr}
    (hn : ∀ m, (mid3 m).toNat ≠ 0 → P (.generic p (.group op m))) (h : ∀ i ∈ k, P i) :
    ∀ i ∈ onlyReg0 p op t k, P i := by
  intro i hi
  unfold onlyReg0 at hi
  split at hi
  · cases hi
  · next m u =>
    split at hi
    · exact h i hi
    · next hne => cases hi; exact hn m (Oct.toNat_ne_zero hne)

theorem some_forall {j : Instr} (h : P j) : ∀ i ∈ some j, P i := by
  rintro _ ⟨⟩
  exact h

end Readers

end Sys2Proof
end

section
/-! Every opcode decodes to an instruction with the prefixes read before it and operands that its encoding can name
(30_encoding.md R195 to R202). -/

namespace Sys2Proof

theorem Ea.byteReg_wellFormed {e : Ea Oct} (h : e.wellFormed = true) : e.byteReg.wellFormed = true :=
  (Ea.map_wellFormed _ e).trans h

theorem Ea.wordReg_wellFormed {e : Ea Oct} (h : e.wellFormed = true) : e.wordReg.wellFormed = true :=
  (Ea.map_wellFormed _ e).trans h

/-- What the opcode `op` after the prefixes `p` gives: `prefixByte` says that an instruction
that stands for one of the prefixes comes only from that opcode. -/
structure FromOpcode (p : List Pfx) (op : Byte) (i : Instr) : Prop where
  pfx : i.pfx = p
  operands : i.operandsWellFormed = true
  prefixByte : i.isPrefixByte = true → Pfx.ofByte op ≠ none

section Opcodes

variable {p : List Pfx} {op : Byte} {t : List Byte}

/-- An instruction that stands for none of the prefixes. -/
theorem FromOpcode.plain {i : Instr} (hp : i.pfx = p) (ho : i.operandsWellFormed = true) (hn : i.isPrefixByte = false) :
    FromOpcode p op i :=
  ⟨hp, ho, fun h => by rw [hn] at h; cases h⟩

theorem FromOpcode.group {o m : Byte} (h : isUnknownGroup o m = true) : FromOpcode p op (.generic p (.group o m)) :=
  .plain rfl h rfl

theorem FromOpcode.alu (k : Oct) {f : AluForm} (h : f.wellFormed = true) : FromOpcode p op (aluOf k p f) := by
  cases k <;> exact .plain rfl h rfl

theorem FromOpcode.jccLow (k : Oct) (d : Byte) : FromOpcode p op (jccLow k p d) := by
  cases k <;> exact .plain rfl rfl rfl

theorem FromOpcode.jccHigh (k : Oct) (d : Byte) : FromOpcode p op (jccHigh k p d) := by
  cases k <;> exact .plain rfl rfl rfl

theorem decode0_fromOpcode (y z : Oct) : ∀ i ∈ decode0 p y z t, FromOpcode p (octal .q0 y z) i := by
  unfold decode0
  cases z with
  | o0 => exact withRM_forall fun _ _ he => .alu y (Ea.byteReg_wellFormed he)
  | o1 => exact withRM_forall fun _ _ he => .alu y (Ea.wordReg_wellFormed he)
  | o2 => exact withRM_forall fun _ _ he => .alu y (Ea.byteReg_wellFormed he)
  | o3 => exact withRM_forall fun _ _ he => .alu y (Ea.wordReg_wellFormed he)
  | o4 => exact with8_forall fun _ => .alu y rfl
  | o5 => exact with16_forall fun _ => .alu y rfl
  | o6 =>
    cases y with
    | o0 | o1 | o2 | o3 => exact some_forall (.plain rfl rfl rfl)
    | o4 | o5 | o6 | o7 => exact some_forall ⟨rfl, rfl, fun _ => nofun⟩
  | o7 => cases y <;> exact some_forall (.plain rfl rfl rfl)

theorem decode1_fromOpcode (y z : Oct) : ∀ i ∈ decode1 p y z t, FromOpcode p op i := by
  cases y with
  | o0 | o1 | o2 | o3 => exact some_forall (.plain rfl rfl rfl)
  | o4 | o5 => cases z <;> exact some_forall (.plain rfl rfl rfl)
  | o6 => exact with8_forall fun _ => .jccLow z _
  | o7 => exact with8_forall fun _ => .jccHigh z _

theorem decode8C_fromOpcode : ∀ i ∈ decode8C p t, FromOpcode p op i := by
  intro i hi
  unfold decode8C at hi
  split at hi
  · cases hi
  · split at hi
    · exact withRM_forall (fun _ _ he => .plain rfl (Ea.wordReg_wellFormed he) rfl) i hi
    · next hg =>
      cases hi
      exact .group (by simpa [isUnknownGroup, mid3_toNat] using SReg.ofOct_none hg)

theorem decode8E_fromOpcode : ∀ i ∈ decode8E p t, FromOpcode p op i := by
  intro i hi
  unfold decode8E at hi
  split at hi
  · cases hi
  · split at hi
    · next hg =>
      cases hi
      have hr := mid3_toNat _ ▸ SReg.ofOct_cs hg
      exact .group (by simp [isUnknownGroup, hr])
    · next g hne _ =>
      refine withRM_forall (fun _ _ he => .plain rfl ?_ rfl) i hi
      simpa [Instr.operandsWellFormed, Ea.wordReg_wellFormed he] using hne
    · next hg =>
      cases hi
      have hr := mid3_toNat _ ▸ SReg.ofOct_none hg
      exact .group (by simp [isUnknownGroup, hr])

/-- A single-member group of the three opcodes that have one (30_encoding.md R200). -/
theorem onlyReg0_fromOpcode {o : Byte} (ho : o = 0x8F ∨ o = 0xC6 ∨ o = 0xC7) {k : Option Instr}
    (h : ∀ i ∈ k, FromOpcode p op i) : ∀ i ∈ onlyReg0 p o t k, FromOpcode p op i := by
  refine onlyReg0_forall (fun m hm => .group ?_) h
  rw [mid3_toNat] at hm
  rcases ho with rfl | rfl | rfl <;> simpa [isUnknownGroup] using hm

/-- A memory-only form of the opcodes with nothing else in them (30_encoding.md R202). -/
theorem withMem_fromOpcode {o : Byte} (ho : o = 0x8D ∨ o = 0xC4 ∨ o = 0xC5) {f : Oct → MemRef → Instr}
    (h : ∀ g r, r.wellFormed = true → FromOpcode p op (f g r)) : ∀ i ∈ withMem p o t f, FromOpcode p op i := by
  refine withMem_forall (fun m _ _ hx => .group ?_) h
  have hm : m.toNat / 64 = 3 := by rw [← top2_toNat, hx]; rfl
  rcases ho with rfl | rfl | rfl <;> simp [isUnknownGroup, hm]

theorem decode2_fromOpcode (y z : Oct) : ∀ i ∈ decode2 p y z t, FromOpcode p op i := by
  unfold decode2
  cases y with
  | o0 =>
    cases z with
    | o0 | o2 => exact withRM8_forall fun k _ _ he => .alu k (Ea.byteReg_wellFormed he)
    | o1 => exact withRM16_forall fun k _ _ he => .alu k (Ea.wordReg_wellFormed he)
    | o3 => exact withRM8_forall fun k _ _ he => .alu k (Ea.wordReg_wellFormed he)
    | o4 | o6 => exact withRM_forall fun _ _ he => .plain rfl (Ea.byteReg_wellFormed he) rfl
    | o5 | o7 => exact withRM_forall fun _ _ he => .plain rfl (Ea.wordReg_wellFormed he) rfl
  | o1 =>
    cases z with
    | o0 | o2 => exact withRM_forall fun _ _ he => .plain rfl (Ea.byteReg_wellFormed he) rfl
    | o1 | o3 => exact withRM_forall fun _ _ he => .plain rfl (Ea.wordReg_wellFormed he) rfl
    | o4 => exact decode8C_fromOpcode
    | o5 => exact withMem_fromOpcode (.inl rfl) fun _ _ hr => .plain rfl hr rfl
    | o6 => exact decode8E_fromOpcode
    | o7 =>
      exact onlyReg0_fromOpcode (.inl rfl) (withRM_forall fun _ _ he => .plain rfl (Ea.wordReg_wellFormed he) rfl)
  | o2 => cases z <;> exact some_forall (.plain rfl rfl rfl)
  | o3 =>
    cases z with
    | o2 => exact withPtr_forall fun _ _ => .plain rfl rfl rfl
    | o0 | o1 | o3 | o4 | o5 | o6 | o7 => exact some_forall (.plain rfl rfl rfl)
  | o4 =>
    cases z with
    | o0 | o1 | o2 | o3 => exact with16_forall fun _ => .plain rfl rfl rfl
    | o4 | o5 | o6 | o7 => exact some_forall (.plain rfl rfl rfl)
  | o5 =>
    cases z with
    | o0 => exact with8_forall fun _ => .plain rfl rfl rfl
    | o1 => exact with16_forall fun _ => .plain rfl rfl rfl
    | o2 | o3 | o4 | o5 | o6 | o7 => exact some_forall (.plain rfl rfl rfl)
  | o6 => exact with8_forall fun _ => .plain rfl rfl rfl
  | o7 => exact with16_forall fun _ => .plain rfl rfl rfl

theorem decodeGroup3_fromOpcode {o : Byte} (ho : o = 0xF6 ∨ o = 0xF7) {w : Width} {test0 : Option Instr}
    {unary : Ea Oct → UnaryForm} (h : ∀ i ∈ test0, FromOpcode p op i)
    (hu : ∀ e, e.wellFormed = true → (unary e).wellFormed = true) :
    ∀ i ∈ decodeGroup3 p o w t test0 unary, FromOpcode p op i := by
  intro i hi
  unfold decodeGroup3 at hi
  split at hi
  · cases hi
  · next m _ =>
    split at hi
    · exact h i hi
    · next hm =>
      cases hi
      have hr : m.toNat / 8 % 8 = 1 := by rw [← mid3_toNat, hm]; rfl
      exact .group (by rcases ho with rfl | rfl <;> simp [isUnknownGroup, hr])
    · exact withRM_forall (fun _ e he => .plain rfl (hu e he) rfl) i hi
    · exact withRM_forall (fun _ e he => .plain rfl (hu e he) rfl) i hi
    all_goals exact some_forall (.plain rfl rfl rfl) i hi

theorem decodeGroup4_fromOpcode : ∀ i ∈ decodeGroup4 p t, FromOpcode p op i := by
  intro i hi
  unfold decodeGroup4 at hi
  split at hi
  · cases hi
  · next m _ =>
    split at hi
    · exact withRM_forall (fun _ _ he => .plain rfl (Ea.byteReg_wellFormed he) rfl) i hi
    · exact withRM_forall (fun _ _ he => .plain rfl (Ea.byteReg_wellFormed he) rfl) i hi
    · next h0 h1 =>
      cases hi
      have hr : 2 ≤ m.toNat / 8 % 8 := by
        rw [← mid3_toNat]
        generalize mid3 m = g at h0 h1
        cases g with
        | o0 => exact absurd rfl h0
        | o1 => exact absurd rfl h1
        | o2 | o3 | o4 | o5 | o6 | o7 => decide
      exact .group (by simpa [isUnknownGroup] using hr)

/-- The far forms of group 5 are memory-only (30_encoding.md R199, R202). -/
theorem withMem_far_fromOpcode {m : Byte} {u : List Byte} (hm : mid3 m = .o3 ∨ mid3 m = .o5)
    {f : Oct → MemRef → Instr} (h : ∀ g r, r.wellFormed = true → FromOpcode p op (f g r)) :
    ∀ i ∈ withMem p 0xFF (m :: u) f, FromOpcode p op i := by
  refine withMem_forall (fun m' _ e hx => .group ?_) h
  obtain ⟨rfl, -⟩ := List.cons.inj e
  have hd : m.toNat / 64 = 3 := by rw [← top2_toNat, hx]; rfl
  have hr : m.toNat / 8 % 8 = 3 ∨ m.toNat / 8 % 8 = 5 := by
    rw [← mid3_toNat]
    exact hm.imp (fun e => by rw [e]; rfl) (fun e => by rw [e]; rfl)
  simpa [isUnknownGroup, hd] using Or.inr hr

theorem decodeGroup5_fromOpcode : ∀ i ∈ decodeGroup5 p t, FromOpcode p op i := by
  intro i hi
  unfold decodeGroup5 at hi
  split at hi
  · cases hi
  · next m _ =>
    split at hi
    case h_4 hm => exact withMem_far_fromOpcode (.inl hm) (fun _ _ hr => by exact .plain rfl hr rfl) i hi
    case h_6 hm => exact withMem_far_fromOpcode (.inr hm) (fun _ _ hr => by exact .plain rfl hr rfl) i hi
    case h_8 hm =>
      cases hi
      have hr : m.toNat / 8 % 8 = 7 := by rw [← mid3_toNat, hm]; rfl
      exact .group (by simp [isUnknownGroup, hr])
    all_goals exact withRM_forall (fun _ _ he => .plain rfl (Ea.wordReg_wellFormed he) rfl) i hi

theorem decode3_fromOpcode (y z : Oct) : ∀ i ∈ decode3 p y z t, FromOpcode p (octal .q3 y z) i := by
  unfold decode3
  cases y with
  | o0 =>
    cases z with
    | o0 | o1 | o3 => exact some_forall (.plain rfl rfl rfl)
    | o2 => exact with16_forall fun _ => .plain rfl rfl rfl
    | o4 => exact withMem_fromOpcode (.inr (.inl rfl)) fun _ _ hr => .plain rfl hr rfl
    | o5 => exact withMem_fromOpcode (.inr (.inr rfl)) fun _ _ hr => .plain rfl hr rfl
    | o6 =>
      exact onlyReg0_fromOpcode (.inr (.inl rfl))
        (withRM8_forall fun _ _ _ he => .plain rfl (Ea.byteReg_wellFormed he) rfl)
    | o7 =>
      exact onlyReg0_fromOpcode (.inr (.inr rfl))
        (withRM16_forall fun _ _ _ he => .plain rfl (Ea.wordReg_wellFormed he) rfl)
  | o1 =>
    cases z with
    | o2 => exact with16_forall fun _ => .plain rfl rfl rfl
    | o5 => exact with8_forall fun _ => .plain rfl rfl rfl
    | o0 | o1 | o3 | o4 | o6 | o7 => exact some_forall (.plain rfl rfl rfl)
  | o2 => cases z <;> exact some_forall (.plain rfl rfl rfl)
  | o3 => exact some_forall (.plain rfl rfl rfl)
  | o4 => cases z <;> exact with8_forall fun _ => .plain rfl rfl rfl
  | o5 =>
    cases z with
    | o0 | o1 => exact with16_forall fun _ => .plain rfl rfl rfl
    | o2 => exact withPtr_forall fun _ _ => .plain rfl rfl rfl
    | o3 => exact with8_forall fun _ => .plain rfl rfl rfl
    | o4 | o5 | o6 | o7 => exact some_forall (.plain rfl rfl rfl)
  | o6 =>
    cases z with
    | o2 | o3 => exact some_forall ⟨rfl, rfl, fun _ => nofun⟩
    | o6 =>
      exact decodeGroup3_fromOpcode (.inl rfl)
        (withRM8_forall fun _ _ _ he => .plain rfl (Ea.byteReg_wellFormed he) rfl) fun _ => Ea.byteReg_wellFormed
    | o7 =>
      exact decodeGroup3_fromOpcode (.inr rfl)
        (withRM16_forall fun _ _ _ he => .plain rfl (Ea.wordReg_wellFormed he) rfl) fun _ => Ea.wordReg_wellFormed
    | o0 | o1 | o4 | o5 => exact some_forall (.plain rfl rfl rfl)
  | o7 =>
    cases z with
    | o6 => exact decodeGroup4_fromOpcode
    | o7 => exact decodeGroup5_fromOpcode
    | o0 | o1 | o2 | o3 | o4 | o5 => exact some_forall (.plain rfl rfl rfl)

theorem decodeOp_fromOpcode : ∀ i ∈ decodeOp p op t, FromOpcode p op i := by
  rw [← octal_fields op, decodeOp_octal]
  cases top2 op with
  | q0 => exact decode0_fromOpcode _ _
  | q1 => exact decode1_fromOpcode _ _
  | q2 => exact decode2_fromOpcode _ _
  | q3 => exact decode3_fromOpcode _ _

end Opcodes

/-! ### The chain of prefixes -/

/-- Decode takes at most four prefixes, and takes one as the opcode only after four (30_encoding.md R151, R152). -/
theorem decode_wellFormed {q : List Byte} {i : Instr} (h : decode q = some i) : i.wellFormed = true := by
  obtain ⟨hlen, -, hstop⟩ := takePrefixes_spec Config.maxPrefixes q
  unfold decode at h
  split at h
  · cases h
  · next op t hrest =>
    obtain ⟨hp, ho, hb⟩ := decodeOp_fromOpcode i h
    have hfull : i.isPrefixByte = true → i.pfx.length = Config.maxPrefixes := by
      intro hi
      by_contra hne
      exact hb hi (hstop (by rw [hp] at hne; omega) op t hrest)
    rw [← hp] at hlen
    unfold Instr.wellFormed Instr.prefixesWellFormed
    rw [ho, Bool.true_and]
    split
    · next hi => exact beq_iff_eq.2 (hfull hi)
    · exact decide_eq_true hlen

end Sys2Proof
end

section
/-! O59 (10_state.md R43, R45, R46, R48, 20_memory.md R117, 48_pipeline.md R454, R457): every step keeps the invariant.
All of `State.Inv` but the stage is kept by whatever keeps the pipeline's state (`Kept`); the stage is Fetching at the
end of a tick, and at a StepWait it is right because decode gives well-formed instructions and IP is past this one. -/

namespace Sys2Proof.Machine

/-- The invariant without the stage, which is neither when an instruction executes. -/
structure State.InvButStage (s : State) : Prop where
  mem : s.mem.wf = true
  pq : s.pq.length ≤ Config.pqCapacity
  dq : s.dq.idle = true
  params : s.params.legal = true

theorem State.Inv.butStage {s : State} (h : s.Inv) : s.InvButStage := ⟨h.mem, h.pq, h.dq, h.params⟩

theorem State.InvButStage.withStage {s : State} (h : s.InvButStage) (g : Stage) : (s.withStage g).InvButStage :=
  ⟨h.mem, h.pq, h.dq, h.params⟩

theorem State.InvButStage.kept {s t : State} (h : s.InvButStage) (k : Kept s t) : t.InvButStage :=
  ⟨k.wf h.mem, k.pq ▸ h.pq, k.dq ▸ h.dq, k.params ▸ h.params⟩

theorem State.InvButStage.inv {s : State} (h : s.InvButStage) (hs : s.stageOk = true) : s.Inv :=
  ⟨h.mem, h.pq, h.dq, h.params, hs⟩

theorem State.stageOk_of_fetching {s : State} (h : s.stage = .fetching) : s.stageOk = true := by
  unfold State.stageOk
  rw [h]

/-- What keeps the pipeline's state ends a tick as it began: Fetching, with the invariant. -/
theorem State.InvButStage.inv_of_kept_fetching {s t : State} (h : s.InvButStage) (k : Kept (s.withStage .fetching) t) :
    t.Inv :=
  ((h.withStage .fetching).kept k).inv (State.stageOk_of_fetching k.stage)

theorem State.InvButStage.atExecute {s : State} (h : s.InvButStage) {dq : DQueue} (hq : dq.idle = true) (len : Nat)
    (g : Stage) : (s.atExecute dq len g).InvButStage :=
  ⟨h.mem, s.fetchedBytes_length.le, hq, h.params⟩

/-- An instruction executed and the tick ended. -/
theorem State.InvButStage.inv_exec_finish {i : Instr} {s t : State} (h : s.InvButStage) (he : exec i s = .next t)
    (tf0 : Bool) : (t.finish tf0).Inv :=
  (h.kept (exec_kept he)).inv_of_kept_fetching (State.finish_kept t tf0)

/-- IP past the instruction, the address of its first byte is the one at which it was decoded (30_encoding.md R140). -/
theorem State.atExecute_startAddr (s : State) (dq : DQueue) (len : Nat) (g : Stage) :
    (s.atExecute dq len g).startAddr len = s.insAddr :=
  congrArg (linear (s.sreg .cs)) (BitVec.add_sub_cancel s.ip (BitVec.ofNat 16 len))

/-- The StepWait of an instruction that a tick at `s` decoded (48_pipeline.md R457). -/
theorem State.enterWait_stageOk {s : State} {i : Instr} (hd : decode s.fetchedBytes = some i) (hr : i.isRefused = false)
    (hpq : s.pq.length ≤ Config.pqCapacity) (dq : DQueue) :
    ((s.atExecute dq i.len .decoding).enterWait (s.decodedRecord i) s.pq).stageOk = true := by
  have ha : s.insAddr = ((s.atExecute dq i.len .decoding).enterWait (s.decodedRecord i) s.pq).startAddr i.len :=
    (s.atExecute_startAddr dq i.len .decoding).symm
  simp only [State.stageOk, State.enterWait, State.record_stage, State.withStage_stage, Bool.and_eq_true,
    decide_eq_true_eq, Bool.not_eq_true', beq_iff_eq]
  exact ⟨⟨⟨⟨hpq, decode_wellFormed hd⟩, hr⟩, ha⟩, rfl⟩

/-- A decoded queue an instruction has passed through is idle again (20_memory.md R117). -/
theorem PassedOn.dq_idle {s : State} {d : Decoded} {dq : DQueue} (hp : PassedOn s d dq) (hd : s.dq.idle = true) :
    dq.idle = true := by
  obtain ⟨_, _, _, _, rfl⟩ := hp.idle hd
  exact s.dq.passed_idle hd

theorem Stepped.inv {s t : State} (h : Stepped s t) (hi : s.Inv) : t.Inv := by
  have hb := hi.butStage
  cases h with
  | waiting => exact hi
  | unchanged => exact hb.inv_of_kept_fetching (.refl _)
  | nmi =>
    have hn : (s.withNmi false).InvButStage := ⟨hb.mem, hb.pq, hb.dq, hb.params⟩
    exact hn.inv_of_kept_fetching (State.interrupt_kept _ 2 .nmi)
  | intr _ n => exact hb.inv_of_kept_fetching (State.interrupt_kept _ n .intr)
  | toWait _ d dq hp =>
    obtain ⟨i, hd, hr, rfl, rfl⟩ := hp.idle hi.dq
    have ha := (hb.atExecute (s.dq.passed_idle hi.dq) i.len .decoding).withStage
      (.stepWait (s.decodedRecord i) s.pq false)
    exact (ha.kept (State.record_kept _ .stepNotify)).inv (State.enterWait_stageOk hd hr hi.pq _)
  | ran _ d dq hp u he => exact (hb.atExecute (hp.dq_idle hi.dq) _ _).inv_exec_finish he _
  | resumed d pq0 _ u he => exact (hb.withStage .executing).inv_exec_finish he _

/-- Settles O59: by the cases of what a step can have done (`Stepped`). -/
theorem everyStepKeepsTheInvariant : Obligations.EveryStepKeepsTheInvariant := by
  unfold Obligations.EveryStepKeepsTheInvariant
  exact fun s t hi h => (step_next h).inv hi

end Sys2Proof.Machine
end

section
/-! O47 (10_state.md R41, 60_exceptions.md R498): which flags each instruction may write, and that only POPF and IRET
can set TF. -/

namespace Sys2Proof.Machine

open Sys2Proof.Claims

/-! ### Flags that a flag function leaves -/

/-- Flags that agree in TF, IF and DF agree outside the six that the ALU writes. -/
theorem Flags.get_eq_off_arithFlags {f g : Flags} (ht : g.tf = f.tf) (hi : g.ifl = f.ifl) (hd : g.df = f.df) :
    ∀ n, n ∉ arithFlags → g.get n = f.get n := by
  intro n hn
  cases n with
  | tf => exact ht
  | ifl => exact hi
  | df => exact hd
  | cf | pf | af | zf | sf | of => exact absurd hn (by decide)

/-- What INC and DEC write leaves CF too (40_alu.md R243, R244). -/
theorem Flags.get_eq_off_incFlags {f g : Flags} (hc : g.cf = f.cf) (ht : g.tf = f.tf) (hi : g.ifl = f.ifl)
    (hd : g.df = f.df) : ∀ n, n ∉ incFlags → g.get n = f.get n := by
  intro n hn
  cases n with
  | cf => exact hc
  | tf => exact ht
  | ifl => exact hi
  | df => exact hd
  | pf | af | zf | sf | of => exact absurd hn (by decide)

/-! ### The flags after each shared operation -/

/-- Outside `l`, the flags of `t` are those of `s`. -/
def FlagsKeptBut (l : List FlagName) (s t : State) : Prop := ∀ n, n ∉ l → t.flags.get n = s.flags.get n

theorem FlagsKeptBut.of_eq {l : List FlagName} {s t : State} (h : t.flags = s.flags) : FlagsKeptBut l s t :=
  fun n _ => by rw [h]

theorem State.aluWrite_flagsKept {fn : AluFn} {l : List FlagName}
    (h : ∀ m f (a c : BitVec m) n, n ∉ l → (fn m f a c).2.get n = f.get n) (s : State) (q : Pair) :
    FlagsKeptBut l s (s.aluWrite fn q) := by
  intro n hn
  cases q with
  | b d a c => rw [State.aluWrite, State.writeLoc8_flags]; exact h _ _ _ _ n hn
  | w d a c => rw [State.aluWrite, State.writeLoc16_flags]; exact h _ _ _ _ n hn

theorem State.aluDiscard_flagsKept {fn : AluFn} {l : List FlagName}
    (h : ∀ m f (a c : BitVec m) n, n ∉ l → (fn m f a c).2.get n = f.get n) (s : State) (q : Pair) :
    FlagsKeptBut l s (s.aluDiscard fn q) := by
  intro n hn
  cases q <;> exact h _ _ _ _ n hn

theorem State.unaryWrite_flagsKept {fn : UnaryFn} {l : List FlagName}
    (h : ∀ m f (a : BitVec m) n, n ∉ l → (fn m f a).2.get n = f.get n) (s : State) (q : Single) :
    FlagsKeptBut l s (s.unaryWrite fn q) := by
  intro n hn
  cases q with
  | b d a => rw [State.unaryWrite, State.writeLoc8_flags]; exact h _ _ _ n hn
  | w d a => rw [State.unaryWrite, State.writeLoc16_flags]; exact h _ _ _ n hn

theorem State.logicFlagsOf_flagsKept {m : Nat} (s : State) (r : BitVec m) :
    FlagsKeptBut arithFlags s (s.logicFlagsOf r) :=
  Flags.get_eq_off_arithFlags rfl rfl rfl

theorem State.logicWrite_flagsKept (s : State) (fn : LogicFn) (q : Pair) :
    FlagsKeptBut arithFlags s (s.logicWrite fn q) := by
  intro n hn
  cases q with
  | b d a c => rw [State.logicWrite, State.writeLoc8_flags]; exact s.logicFlagsOf_flagsKept _ n hn
  | w d a c => rw [State.logicWrite, State.writeLoc16_flags]; exact s.logicFlagsOf_flagsKept _ n hn

theorem State.logicDiscard_flagsKept (s : State) (fn : LogicFn) (q : Pair) :
    FlagsKeptBut arithFlags s (s.logicDiscard fn q) := by
  cases q <;> exact s.logicFlagsOf_flagsKept _

theorem State.jumpIf_flags (s : State) (c : Bool) (d : Byte) : (s.jumpIf c d).flags = s.flags := by
  cases c <;> rfl

theorem State.inAcc_flags (s : State) (w : Width) (port : Word) : (s.inAcc w port).flags = s.flags := by
  cases w <;> rfl

theorem State.outAcc_flags (s : State) (w : Width) (port : Word) : (s.outAcc w port).flags = s.flags := by
  cases w <;> rfl

/-- Interrupt entry clears IF and TF and leaves the other flags (60_exceptions.md R490). -/
theorem State.interrupt_flags (s : State) (n : Byte) (src : IntSource) :
    (s.interrupt n src).flags = { s.flags with ifl := false, tf := false } := rfl

theorem State.interrupt_flagsKept (s : State) (n : Byte) (src : IntSource) :
    FlagsKeptBut [.ifl, .tf] s (s.interrupt n src) := by
  intro m hm
  rw [State.interrupt_flags]
  cases m with
  | ifl | tf => exact absurd hm (by decide)
  | cf | pf | af | zf | sf | df | of => rfl

/-- CF alone (44_processor_control.md R421 to R423). -/
theorem State.withFlags_cf_flagsKept (s : State) (b : Bool) :
    FlagsKeptBut [.cf] s (s.withFlags { s.flags with cf := b }) := by
  intro n hn
  cases n with
  | cf => exact absurd hn (by decide)
  | pf | af | zf | sf | tf | ifl | df | of => rfl

/-- IF alone (44_processor_control.md R424, R425). -/
theorem State.withFlags_ifl_flagsKept (s : State) (b : Bool) :
    FlagsKeptBut [.ifl] s (s.withFlags { s.flags with ifl := b }) := by
  intro n hn
  cases n with
  | ifl => exact absurd hn (by decide)
  | cf | pf | af | zf | sf | tf | df | of => rfl

/-- DF alone (44_processor_control.md R426, R427). -/
theorem State.withFlags_df_flagsKept (s : State) (b : Bool) :
    FlagsKeptBut [.df] s (s.withFlags { s.flags with df := b }) := by
  intro n hn
  cases n with
  | df => exact absurd hn (by decide)
  | cf | pf | af | zf | sf | tf | ifl | of => rfl

/-- SAHF's five flags (42_data_transfer.md R352). -/
theorem State.withFlags_loadLow_flagsKept (s : State) (v : Byte) :
    FlagsKeptBut [.sf, .zf, .af, .pf, .cf] s (s.withFlags (s.flags.loadLow v)) := by
  intro n hn
  cases n with
  | sf | zf | af | pf | cf => exact absurd hn (by decide)
  | tf | ifl | df | of => rfl

theorem mem_allFlags (n : FlagName) : n ∈ allFlags := by
  cases n <;> decide

/-- With every flag listed, none is left to keep. -/
theorem FlagsKeptBut.all (s t : State) : FlagsKeptBut allFlags s t := fun n hn => absurd (mem_allFlags n) hn

/-! ### What an instruction answers -/

/-- Everything a meaning can answer, of flags: what is outside the instruction's list stays, and if TF is set after, it
was set before or the instruction is POPF or IRET. -/
inductive FlagsAnswer (i : Instr) (s : State) : Result → Prop where
  | next (t : State) (kept : FlagsKeptBut (flagsWritten i) s t)
      (trap : t.flags.tf = true → s.flags.tf = true ∨ ∃ p, i = .popf p ∨ i = .iret p) :
      FlagsAnswer i s (.next t)
  | fault (e : Fault) : FlagsAnswer i s (.fault e)
  | refused (e : Refusal) : FlagsAnswer i s (.refused e)

section Answers

variable {i : Instr} {s t : State}

/-- An instruction with TF outside its list. -/
theorem FlagsAnswer.of_kept {l : List FlagName} (h : FlagsKeptBut l s t) (hl : flagsWritten i = l) (htf : .tf ∉ l) :
    FlagsAnswer i s (.next t) :=
  .next t (hl ▸ h) fun e => .inl ((h .tf htf).symm.trans e)

/-- An instruction that writes no flag. -/
theorem FlagsAnswer.of_eq (h : t.flags = s.flags) : FlagsAnswer i s (.next t) :=
  .next t (.of_eq h) fun e => .inl (h ▸ e)

theorem FlagsAnswer.interrupt (n : Byte) (src : IntSource) (h : flagsWritten i = [.ifl, .tf]) :
    FlagsAnswer i s (.next (s.interrupt n src)) :=
  .next _ (h ▸ s.interrupt_flagsKept n src) nofun

theorem FlagsAnswer.generic (bytes : List Byte) : FlagsAnswer i s (s.genericEffect bytes) := by
  unfold State.genericEffect
  cases s.params.unknownMode with
  | noopReport => exact .of_eq rfl
  | fault => exact .fault _

end Answers

/-- What the meaning of any instruction answers, of flags. -/
theorem exec_flagsAnswer (i : Instr) (s : State) : FlagsAnswer i s (exec i s) := by
  cases i with
  | add p f | adc p f | sub p f | sbb p f =>
    exact .of_kept (s.aluWrite_flagsKept (fun _ _ _ _ => Flags.get_eq_off_arithFlags rfl rfl rfl) _) rfl (by decide)
  | lor p f | land p f | lxor p f => exact .of_kept (s.logicWrite_flagsKept _ _) rfl (by decide)
  | cmp p f =>
    exact .of_kept (s.aluDiscard_flagsKept (fun _ _ _ _ => Flags.get_eq_off_arithFlags rfl rfl rfl) _) rfl (by decide)
  | test p f => exact .of_kept (s.logicDiscard_flagsKept _ _) rfl (by decide)
  | neg p f =>
    exact .of_kept (s.unaryWrite_flagsKept (fun _ _ _ => Flags.get_eq_off_arithFlags rfl rfl rfl) _) rfl (by decide)
  | inc p f | dec p f =>
    exact .of_kept (s.unaryWrite_flagsKept (fun _ _ _ => Flags.get_eq_off_incFlags rfl rfl rfl rfl) _) rfl (by decide)
  | lnot p f => exact .of_kept (s.unaryWrite_flagsKept (l := []) (fun _ _ _ _ _ => rfl) _) rfl (by decide)
  | movRm p f =>
    cases f with
    | ebGb e g => exact .of_eq (State.writeLoc8_flags _ _ _)
    | evGv e g => exact .of_eq (State.writeLoc16_flags _ _ _)
    | gbEb g e | gvEv g e => exact .of_eq rfl
  | movFromSeg p e g | popRm p e => exact .of_eq (State.writeLoc16_flags _ _ _)
  | movRmImm p f =>
    cases f with
    | ebIb e v => exact .of_eq (State.writeLoc8_flags _ _ _)
    | evIw e v => exact .of_eq (State.writeLoc16_flags _ _ _)
  | xchgRm p f =>
    cases f with
    | ebGb e g => exact .of_eq (State.writeLoc8_flags _ _ _)
    | evGv e g => exact .of_eq (State.writeLoc16_flags _ _ _)
  | movAccMoffs p w off | movMoffsAcc p w off => cases w <;> exact .of_eq rfl
  | pushRm p e => cases e <;> exact .of_eq rfl
  | cbw p | cwd p | movToSeg p g e | movRbIb p r v | movRwIw p r v | xchgAx p r | nop p | lea p g m | lds p g m
  | les p g m | xlat p | pushRw p r | pushSr p g | popRw p r | popSr p g | pushf p | lahf p | hlt p => exact .of_eq rfl
  | popf p => exact .next _ (.all s _) fun _ => .inr ⟨p, .inl rfl⟩
  | iret p => exact .next _ (.all s _) fun _ => .inr ⟨p, .inr rfl⟩
  | sahf p => exact .of_kept (s.withFlags_loadLow_flagsKept _) rfl (by decide)
  | clc p | stc p | cmc p => exact .of_kept (s.withFlags_cf_flagsKept _) rfl (by decide)
  | cli p | sti p => exact .of_kept (s.withFlags_ifl_flagsKept _) rfl (by decide)
  | cld p | std p => exact .of_kept (s.withFlags_df_flagsKept _) rfl (by decide)
  | inImm p w port | inDx p w => exact .of_eq (State.inAcc_flags _ _ _)
  | outImm p w port | outDx p w => exact .of_eq (State.outAcc_flags _ _ _)
  | jo p d | jno p d | jb p d | jnb p d | jz p d | jnz p d | jbe p d | ja p d | js p d | jns p d | jp p d | jnp p d
  | jl p d | jge p d | jle p d | jg p d | jcxz p d | loop p d | loope p d | loopne p d =>
    exact .of_eq (State.jumpIf_flags _ _ _)
  | jmpShort p d | jmpNear p d | jmpFar p off sel | jmpRm p e | jmpMem p m | callNear p d | callFar p off sel
  | callRm p e | callMem p m | ret p | retImm p v | retf p | retfImm p v => exact .of_eq rfl
  | int p n | int3 p => exact .interrupt _ _ rfl
  | into p =>
    unfold exec execInto
    cases s.flags.of with
    | false => exact .of_eq rfl
    | true => exact .interrupt _ _ rfl
  | daa p | das p | aaa p | aas p | wait p | movsb p | movsw p | cmpsb p | cmpsw p | stosb p | stosw p | lodsb p
  | lodsw p | scasb p | scasw p | aam p | aad p | lock p | shiftRotate p f | esc p k | mul p w md rm | imul p w md rm
  | div p w md rm | idiv p w md rm => exact .refused _
  | segByte p g | repneByte p | repByte p | generic p u => exact .generic _

/-- Settles O47: every answer of a meaning keeps the flags outside its list and sets TF only by POPF or IRET
(`exec_flagsAnswer`). -/
theorem onlyListedInstructionsWriteFlags : Obligations.OnlyListedInstructionsWriteFlags := by
  unfold Obligations.OnlyListedInstructionsWriteFlags
  intro i s t h
  have a := exec_flagsAnswer i s
  rw [h] at a
  cases a with
  | next _ kept trap => exact ⟨kept, fun h0 h1 => (trap h1).resolve_left (by rw [h0]; decide)⟩

end Sys2Proof.Machine
end

section
/-! O4 (10_state.md R42, R43): the bits of the flags image, over a reserved image that is 0 at the nine positions. -/

namespace Sys2Proof.Machine

/-- A flag at its position is that bit alone. -/
theorem flagAt_bit (x : Bool) {k : Nat} (hk : k < 16) (j : Nat) :
    (flagAt x k).getLsbD j = (x && decide (k = j)) := by
  rw [flagAt, BitVec.getLsbD_ofNat]
  cases x with
  | false => simp
  | true =>
    rw [Bool.toNat_true, one_mul, Nat.testBit_two_pow, Bool.true_and]
    by_cases h : k = j
    · simp [← h, hk]
    · simp [h]

/-- Every bit of the image: the reserved image's, and the flag's if one stands there. -/
theorem Flags.image_bit (f : Flags) (r : Word) (k : Nat) :
    (f.image r).getLsbD k =
      (r.getLsbD k || (f.cf && decide (0 = k)) || (f.pf && decide (2 = k)) || (f.af && decide (4 = k)) ||
        (f.zf && decide (6 = k)) || (f.sf && decide (7 = k)) || (f.tf && decide (8 = k)) ||
        (f.ifl && decide (9 = k)) || (f.df && decide (10 = k)) || (f.of && decide (11 = k))) := by
  simp [Flags.image, BitVec.getLsbD_or, flagAt_bit]

/-- A legal reserved image is 0 where a flag is named (10_state.md R43). -/
theorem Params.legal_bit {p : Params} (h : p.legal = true) {k : Nat} (hk : Config.namedFlagBits.getLsbD k = true) :
    p.flagsReserved.getLsbD k = false := by
  have h0 : p.flagsReserved &&& Config.namedFlagBits = 0 := by simpa [Params.legal] using h
  have hb := congrArg (fun v : Word => v.getLsbD k) h0
  simpa [BitVec.getLsbD_and, hk] using hb

/-- The image over a legal reserved image, position by position. -/
theorem Flags.image_bit_of_legal (f : Flags) {p : Params} (h : p.legal = true) (k : Nat) :
    (f.image p.flagsReserved).getLsbD k =
      if k = 0 then f.cf else if k = 2 then f.pf else if k = 4 then f.af else if k = 6 then f.zf
      else if k = 7 then f.sf else if k = 8 then f.tf else if k = 9 then f.ifl else if k = 10 then f.df
      else if k = 11 then f.of else p.flagsReserved.getLsbD k := by
  have named : ∀ k, Config.namedFlagBits.getLsbD k = true → p.flagsReserved.getLsbD k = false :=
    fun _ => Params.legal_bit h
  rw [Flags.image_bit]
  split_ifs with h0 h2 h4 h6 h7 h8 h9 h10 h11
  case neg => simp [Ne.symm h0, Ne.symm h2, Ne.symm h4, Ne.symm h6, Ne.symm h7, Ne.symm h8, Ne.symm h9, Ne.symm h10,
    Ne.symm h11]
  all_goals subst k; rw [named _ (by decide)]; simp

/-- The restore gives back the saved flags. -/
theorem Flags.restore_image (f : Flags) {p : Params} (h : p.legal = true) :
    Flags.restore (f.image p.flagsReserved) = f := by
  simp only [Flags.restore, Flags.image_bit_of_legal f h]
  rfl

/-- The restore reads the nine positions only. -/
theorem Flags.restore_congr {v w : Word} (h : ∀ k, k ∉ [1, 3, 5, 12, 13, 14, 15] → v.getLsbD k = w.getLsbD k) :
    Flags.restore v = Flags.restore w := by
  unfold Flags.restore
  rw [h 0 (by decide), h 2 (by decide), h 4 (by decide), h 6 (by decide), h 7 (by decide), h 8 (by decide),
    h 9 (by decide), h 10 (by decide), h 11 (by decide)]

/-- Settles O4: the image bit by bit over a legal reserved image, and what the restore reads. -/
theorem flagsImageSavesAndRestoresNineFlags : Obligations.FlagsImageSavesAndRestoresNineFlags := by
  unfold Obligations.FlagsImageSavesAndRestoresNineFlags
  exact ⟨fun f p h => ⟨f.image_bit_of_legal h, f.restore_image h⟩, fun _ _ => Flags.restore_congr, fun _ => rfl⟩

end Sys2Proof.Machine
end

section
/-! O3 (10_state.md R32, R33): the byte registers as numbers, halves of the word register they lie in. -/

namespace Sys2Proof.Machine

theorem wordOf_toNat (lo hi : Byte) : (wordOf lo hi).toNat = 256 * hi.toNat + lo.toNat := by
  rw [wordOf, BitVec.toNat_append, ← Nat.shiftLeft_add_eq_or_of_lt lo.isLt, Nat.shiftLeft_eq, Nat.mul_comm]

theorem loByte_toNat (v : Word) : (loByte v).toNat = v.toNat % 256 := by
  rw [loByte, BitVec.extractLsb'_toNat, Nat.shiftRight_zero]

theorem hiByte_toNat (v : Word) : (hiByte v).toNat = v.toNat / 256 := by
  rw [hiByte, BitVec.extractLsb'_toNat, Nat.shiftRight_eq_div_pow]
  have := v.isLt
  omega

theorem Oct.toNat_injective : Function.Injective Oct.toNat :=
  Function.LeftInverse.injective (g := fun n => Oct.ofBits (BitVec.ofNat 3 n)) fun k => by cases k <;> rfl

theorem Oct.toNat_lt (k : Oct) : k.toNat < 8 := by
  cases k <;> decide

/-- Byte register j lies in word register j mod 4. -/
theorem Reg8.parent_ofOct_code (j : Oct) : (Reg8.parent (Reg8.ofOct j)).code.toNat = j.toNat % 4 := by
  cases j <;> rfl

theorem Reg8.ofOct_eq_parent_iff {i j : Oct} :
    Reg16.ofOct i = Reg8.parent (Reg8.ofOct j) ↔ i.toNat = j.toNat % 4 := by
  rw [← Reg8.parent_ofOct_code]
  constructor
  · intro e; rw [← e, Reg16.code_ofOct]
  · intro e; rw [Oct.toNat_injective e, Reg16.ofOct_code]

/-- Byte registers 4 to 7 are the high halves. -/
theorem Reg8.isHigh_ofOct (j : Oct) : Reg8.isHigh (Reg8.ofOct j) = decide (4 ≤ j.toNat) := by
  cases j <;> rfl

theorem State.reg8_toNat (s : State) (r : Reg8) :
    (s.reg8 r).toNat =
      if Reg8.isHigh r then (s.reg16 (Reg8.parent r)).toNat / 256 else (s.reg16 (Reg8.parent r)).toNat % 256 := by
  unfold State.reg8
  split
  · exact hiByte_toNat _
  · exact loByte_toNat _

/-- A byte write replaces its half of the word register and keeps the other half. -/
theorem State.setReg8_parent_toNat (s : State) (r : Reg8) (v : Byte) :
    ((s.setReg8 r v).reg16 (Reg8.parent r)).toNat =
      if Reg8.isHigh r then 256 * v.toNat + (s.reg16 (Reg8.parent r)).toNat % 256
      else 256 * ((s.reg16 (Reg8.parent r)).toNat / 256) + v.toNat := by
  unfold State.setReg8
  rw [State.setReg16_reg16, if_pos rfl]
  split
  · rw [wordOf_toNat, loByte_toNat]
  · rw [wordOf_toNat, hiByte_toNat]

/-- Settles O3: index j names a half of the word register of index j mod 4, the high half from 4 on. -/
theorem byteRegistersAreHalvesOfWordRegisters : Obligations.ByteRegistersAreHalvesOfWordRegisters := by
  unfold Obligations.ByteRegistersAreHalvesOfWordRegisters
  intro s j i v
  refine ⟨fun hj hi => ?_, fun hj hi => ?_, fun hi => ?_⟩
  · have hp : Reg16.ofOct i = Reg8.parent (Reg8.ofOct j) := Reg8.ofOct_eq_parent_iff.2 (by rw [hi]; omega)
    have hh : ¬Reg8.isHigh (Reg8.ofOct j) = true := by rw [Reg8.isHigh_ofOct, decide_eq_true_eq]; omega
    rw [hp, State.reg8_toNat, State.setReg8_parent_toNat, if_neg hh, if_neg hh]
    exact ⟨rfl, rfl⟩
  · have hlt := Oct.toNat_lt j
    have hp : Reg16.ofOct i = Reg8.parent (Reg8.ofOct j) := Reg8.ofOct_eq_parent_iff.2 (by omega)
    have hh : Reg8.isHigh (Reg8.ofOct j) = true := by rw [Reg8.isHigh_ofOct, decide_eq_true_eq]; exact hj
    rw [hp, State.reg8_toNat, State.setReg8_parent_toNat, if_pos hh, if_pos hh]
    exact ⟨rfl, rfl⟩
  · exact s.setReg8_reg16 _ _ v (mt Reg8.ofOct_eq_parent_iff.1 hi)

end Sys2Proof.Machine
end

section
/-! O57, O58 (10_state.md R61, 70_reset_and_hazards.md R530, R531): the state after reset and after loading. -/

namespace Sys2Proof.Machine

/-- The decoded queue after reset has its one slot, empty. -/
theorem State.reset_dq : State.reset.dq = { slots := [none], head := 0, count := 0 } := rfl

theorem State.reset_flags (n : FlagName) : State.reset.flags.get n = false := by
  cases n <;> rfl

/-- Settles O57: the fields of `State.reset` are the values of the reset table. -/
theorem resetLeavesTheValuesOfTheSpec : Obligations.ResetLeavesTheValuesOfTheSpec := by
  unfold Obligations.ResetLeavesTheValuesOfTheSpec
  refine ⟨rfl, rfl, State.reset_flags, rfl, rfl, rfl, fun d => ?_, rfl, rfl, rfl, rfl, rfl, rfl, rfl⟩
  rw [State.reset_dq]
  simp

theorem State.reset_inv : State.reset.Inv where
  mem := State.reset_mem_wf
  pq := Nat.zero_le _
  dq := by rw [State.reset_dq]; rfl
  params := by decide
  stage := rfl

/-- Loading writes memory only, and keeps its canonical form. -/
theorem State.loadImage_inv {s : State} (base : Addr) (image : List Byte) (h : s.Inv) : (s.loadImage base image).Inv :=
  ⟨Memory.wf_load base image h.mem, h.pq, h.dq, h.params, h.stage⟩

/-- Settles O58: what loading leaves in memory is `Memory.read_load`. -/
theorem resetAndLoadedStatesSatisfyInvariant : Obligations.ResetAndLoadedStatesSatisfyInvariant := by
  unfold Obligations.ResetAndLoadedStatesSatisfyInvariant
  exact ⟨State.reset_inv, fun s base image =>
    ⟨State.loadImage_inv base image, rfl, fun hm fit a => Memory.read_load base a image hm fit⟩⟩

end Sys2Proof.Machine
end

section
/-! O1, O2 (20_memory.md R80, R84, R85): addresses, word reads and memory writes in numbers. -/

namespace Sys2Proof.Machine

/-- Twenty bits hold the largest segment times 16; the offset's carry is what wraps (20_memory.md R80). -/
theorem linear_toNat (seg off : Word) : (linear seg off).toNat = (seg.toNat * 16 + off.toNat) % 2 ^ 20 := by
  have hs := seg.isLt
  have ho := off.isLt
  simp only [linear, BitVec.toNat_add, BitVec.toNat_mul, BitVec.toNat_setWidth, BitVec.toNat_ofNat]
  omega

/-- The next linear address, given by its number (20_memory.md R84). -/
theorem addr_eq_succ {a a' : Addr} (h : a'.toNat = (a.toNat + 1) % 2 ^ 20) : a' = a + 1 :=
  BitVec.eq_of_toNat_eq (h.trans (BitVec.toNat_add a 1).symm)

/-- The two bytes of a word read, low byte first (20_memory.md R84). -/
theorem State.read16_toNat (s : State) (a : Addr) :
    (s.read16 a).toNat = 256 * (s.read8 (a + 1)).toNat + (s.read8 a).toNat :=
  wordOf_toNat _ _

/-- Settles O1: the sum of segment and offset in 20 bits, and the two bytes of a word. -/
theorem linearAddressesAndLittleEndianWordReads : Obligations.LinearAddressesAndLittleEndianWordReads := by
  unfold Obligations.LinearAddressesAndLittleEndianWordReads
  refine ⟨linear_toNat, fun s a a' h => ?_⟩
  rw [addr_eq_succ h]
  exact s.read16_toNat a

/-- The region that takes writes, below the read-only one (20_memory.md R86). -/
theorem inRom_eq_false_iff {a : Addr} : inRom a = false ↔ a.toNat < 0xF6000 := by
  rw [inRom, decide_eq_false_iff_not, Nat.not_le, Config.romBase]

/-- The dropped mark of a word write (20_memory.md R85). -/
theorem inRom_or_inRom (a b : Addr) :
    (inRom a || inRom b) = decide (0xF6000 ≤ a.toNat ∨ 0xF6000 ≤ b.toNat) :=
  (Bool.decide_or _ _).symm

theorem loByte_eq_setWidth (v : Word) : loByte v = v.setWidth 8 :=
  BitVec.eq_of_toNat_eq (by rw [loByte_toNat, BitVec.toNat_setWidth])

theorem hiByte_eq_setWidth (v : Word) : hiByte v = (v >>> 8).setWidth 8 := rfl

/-- The bytes of a word write, the low one first: its two addresses differ, so their order does not matter. -/
theorem State.write16_read8_low_first (s : State) (a b : Addr) (v : Word) (h : s.mem.wf = true) :
    (s.write16 a v).read8 b =
      if b = a ∧ inRom a = false then loByte v
      else if b = a + 1 ∧ inRom (a + 1) = false then hiByte v else s.read8 b := by
  rw [State.write16_read8 s a b v h]
  by_cases hb : b = a
  · have hb' : b ≠ a + 1 := fun e => addr_succ_ne a (e.symm.trans hb)
    simp only [hb', false_and, if_false]
  · simp only [hb, false_and, if_false]

/-- Settles O2: what a read gives after a write of each width, with the read-only region in numbers. -/
theorem memoryWriteStoresBelowRomAndDropsAbove : Obligations.MemoryWriteStoresBelowRomAndDropsAbove := by
  unfold Obligations.MemoryWriteStoresBelowRomAndDropsAbove
  intro s a a' hwf ha
  obtain rfl := addr_eq_succ ha
  refine ⟨fun v => ⟨fun b => ?_, rfl⟩, fun v => ⟨fun b => ?_, ?_⟩⟩
  · simp only [State.write8_read8 s a b v hwf, inRom_eq_false_iff]
  · simp only [State.write16_read8_low_first s a b v hwf, inRom_eq_false_iff, loByte_eq_setWidth, hiByte_eq_setWidth]
  · rw [State.write16_log, inRom_or_inRom]

end Sys2Proof.Machine
end

section
/-! O7, O27 (20_memory.md R94 to R96): a push, a pop, and the one after the other. -/

namespace Sys2Proof.Machine

open Sys2Proof.Claims

/-- Everything a push does (20_memory.md R94). -/
theorem State.push16_pushed (s : State) (v : Word) (h : s.mem.wf = true) : Pushed s (s.push16 v) v [] false where
  sp := by rw [State.push16_reg16, if_pos rfl]
  word := s.push16_wrote v h
  log := rfl
  frame := s.push16_frame v h

/-- A pop stores nothing and moves SP alone (20_memory.md R95). -/
theorem State.drop16_storesNothing (s : State) : StoresNothing s s.drop16 { regs := [.sp] } :=
  ⟨rfl, rfl, s.drop16_frame⟩

theorem State.drop16_reg16 (s : State) (r : Reg16) :
    s.drop16.reg16 r = if r = .sp then s.reg16 .sp + 2 else s.reg16 r :=
  s.setReg16_reg16 .sp r _

/-- Settles O7: `State.push16_pushed` and `State.drop16_storesNothing`. -/
theorem pushStoresAndPopReadsAtStackPointer : Obligations.PushStoresAndPopReadsAtStackPointer := by
  unfold Obligations.PushStoresAndPopReadsAtStackPointer
  refine ⟨State.push16_pushed, fun s => ⟨rfl, ?_, s.drop16_storesNothing⟩⟩
  rw [State.drop16_reg16, if_pos rfl]
  exact BitVec.toNat_add _ _

/-- After a push the top of the stack is at the push address. -/
theorem State.push16_top16_eq (s : State) (v : Word) : (s.push16 v).top16 = (s.push16 v).read16 s.pushAddr := by
  rw [State.top16, State.push16_reg16, if_pos rfl]
  rfl

/-- A word that a place outside the read-only region took is what a read gives. -/
theorem Wrote16.read16 {s t : State} {a : Addr} {v : Word} (h : Wrote16 s t (.mem a) v) (h0 : inRom a = false)
    (h1 : inRom (a + 1) = false) : t.read16 a = v := by
  obtain ⟨hlo, hhi⟩ := h
  rw [h0, if_neg Bool.false_ne_true] at hlo
  rw [h1, if_neg Bool.false_ne_true] at hhi
  rw [State.read16, hlo, hhi, wordOf_halves]

/-- A push in writable memory leaves its word on top of the stack (20_memory.md R96). -/
theorem State.push16_top16 (s : State) (v : Word) (h : s.mem.wf = true) (h0 : inRom s.pushAddr = false)
    (h1 : inRom (s.pushAddr + 1) = false) : (s.push16 v).top16 = v := by
  rw [State.push16_top16_eq]
  exact (s.push16_wrote v h).read16 h0 h1

/-- A pop gives SP back its value from before the push (20_memory.md R96). -/
theorem State.push16_drop16_sp (s : State) (v : Word) : (s.push16 v).drop16.reg16 .sp = s.reg16 .sp := by
  rw [State.drop16_reg16, if_pos rfl, State.push16_reg16, if_pos rfl, BitVec.sub_add_cancel]

/-- Settles O27: the popped word is the pushed one (`State.push16_top16`), and SP comes back. -/
theorem pushThenPopReturnsTheWord : Obligations.PushThenPopReturnsTheWord := by
  unfold Obligations.PushThenPopReturnsTheWord
  intro p q r d s hwf hr hd h0 h1
  have hv : s.pushValue r = s.reg16 r := if_neg hr
  refine ⟨_, rfl, _, rfl, ?_, ?_⟩
  · rw [State.setReg16_reg16, if_pos rfl, hv]
    exact s.push16_top16 _ hwf (inRom_eq_false_iff.2 h0) (inRom_eq_false_iff.2 h1)
  · rw [State.setReg16_reg16, if_neg hd.symm]
    exact s.push16_drop16_sp _

end Sys2Proof.Machine
end

section
/-! O8, O9, O10 (20_memory.md R110 to R116): the prefetch queue and the decoded-instruction queue. -/

namespace Sys2Proof.Machine

/-! ### The prefetch queue -/

theorem pqFill_full {addr : Addr} {q : List Byte} {b : Byte} (h : q.length = Config.pqCapacity) :
    pqFill addr q b = .error (.pqOverflow addr) := if_pos h

theorem pqFill_room {addr : Addr} {q : List Byte} {b : Byte} (h : q.length ≠ Config.pqCapacity) :
    pqFill addr q b = .ok (q ++ [b]) := if_neg h

theorem pqPeek_past {addr : Addr} {q : List Byte} {k : Nat} (h : q.length ≤ k) :
    pqPeek addr q k = .error (.pqUnderflow addr) := by
  rw [pqPeek, List.getElem?_eq_none h]

theorem pqPeek_held {addr : Addr} {q : List Byte} {k : Nat} (h : k < q.length) : pqPeek addr q k = .ok q[k] := by
  rw [pqPeek, List.getElem?_eq_getElem h]

/-- Settles O8: an equation per case of each operation. -/
theorem prefetchQueueResetFillAndPeek : Obligations.PrefetchQueueResetFillAndPeek := by
  unfold Obligations.PrefetchQueueResetFillAndPeek
  exact ⟨fun _ => rfl, fun _ _ _ => ⟨pqFill_full, pqFill_room⟩, fun _ _ _ => ⟨pqPeek_past, pqPeek_held⟩⟩

/-- The prefetch queue filled up: what it holds, then the code bytes after those (20_memory.md R113). -/
def State.filledPq (s : State) : List Byte :=
  s.pq ++ (List.range (Config.pqCapacity - s.pq.length)).map fun j => s.codeByte (s.pq.length + j)

theorem State.fetchInstructions_eq {s : State} (h : s.pq.length ≤ Config.pqCapacity) :
    s.fetchInstructions = .ok (s.withPq s.filledPq) := by
  rw [State.fetchInstructions, fetchLoop_eq s _ _ (Nat.add_sub_cancel' h)]
  rfl

theorem State.filledPq_length {s : State} (h : s.pq.length ≤ Config.pqCapacity) :
    s.filledPq.length = Config.pqCapacity := by
  rw [State.filledPq, List.length_append, List.length_map, List.length_range, Nat.add_sub_cancel' h]

theorem State.filledPq_getElem? {s : State} {k : Nat} (h : s.pq.length ≤ k) (hk : k < Config.pqCapacity) :
    s.filledPq[k]? = some (s.codeByte k) := by
  have hr : k - s.pq.length < Config.pqCapacity - s.pq.length := by omega
  rw [State.filledPq, List.getElem?_append_right h, List.getElem?_map, List.getElem?_range hr, Option.map_some,
    Nat.add_sub_cancel' h]

/-- Settles O9: the queue that the fetch leaves is `State.filledPq`. -/
theorem fetchFillsPrefetchQueueToSixBytes : Obligations.FetchFillsPrefetchQueueToSixBytes := by
  unfold Obligations.FetchFillsPrefetchQueueToSixBytes
  intro s h
  exact ⟨s.filledPq, State.fetchInstructions_eq h, State.filledPq_length h, List.prefix_append _ _,
    fun _ => State.filledPq_getElem?⟩

/-! ### The decoded-instruction queue -/

theorem DQueue.fill_full {q : DQueue} {addr : Addr} {d : Decoded} (h : q.count = q.slots.length) :
    q.fill addr d = .error (.dqFull addr) := if_pos h

theorem DQueue.fill_room {q : DQueue} {addr : Addr} {d : Decoded} (h : q.count ≠ q.slots.length) :
    q.fill addr d =
      .ok { q with slots := q.slots.set ((q.head + q.count) % q.slots.length) (some d), count := q.count + 1 } :=
  if_neg h

theorem DQueue.fetch_empty {q : DQueue} {addr : Addr} (h : q.count = 0) : q.fetch addr = .error (.dqEmpty addr) :=
  if_pos h

theorem DQueue.fetch_held {q : DQueue} {addr : Addr} {d : Decoded} (h : q.count ≠ 0)
    (hd : q.slots[q.head]? = some (some d)) :
    q.fetch addr =
      .ok (d, { slots := q.slots.set q.head none, head := (q.head + 1) % q.slots.length, count := q.count - 1 }) := by
  rw [DQueue.fetch, if_neg h, hd]

/-- One slot set and every other as before. -/
theorem slots_set_getElem? (l : List (Option Decoded)) (n : Nat) (x : Option Decoded) {k : Nat} (h : k < l.length) :
    (l.set n x)[k]? = if k = n then some x else l[k]? := by
  by_cases hk : k = n
  · subst hk
    rw [List.getElem?_set_self h, if_pos rfl]
  · rw [List.getElem?_set_ne (Ne.symm hk), if_neg hk]

/-- Settles O10: an equation per case of fill and fetch, each of which sets one slot. -/
theorem decodedQueueFillAndFetch : Obligations.DecodedQueueFillAndFetch := by
  unfold Obligations.DecodedQueueFillAndFetch
  intro q addr d
  refine ⟨DQueue.fill_full, fun h => ?_, DQueue.fetch_empty, fun h hd => ?_⟩
  · exact ⟨_, DQueue.fill_room h, rfl, rfl, List.length_set, fun k => slots_set_getElem? q.slots _ _⟩
  · exact ⟨_, DQueue.fetch_held h hd, rfl, rfl, List.length_set, fun k => slots_set_getElem? q.slots _ _⟩

end Sys2Proof.Machine
end

section
/-! O49 (20_memory.md R85, R89, R90): the instructions that store nothing. -/

namespace Sys2Proof.Machine

open Sys2Proof.Claims

/-- Memory is the same, and what the log has more is no memory write. -/
structure NoStore (s t : State) : Prop where
  mem : t.mem = s.mem
  log : ∃ es, t.log = s.log ++ es ∧ ∀ a v dropped, Event.memWrite a v dropped ∉ es

/-- Nothing recorded. -/
theorem NoStore.of_eq {s t : State} (hm : t.mem = s.mem) (hl : t.log = s.log) : NoStore s t :=
  ⟨hm, [], hl.trans (List.append_nil _).symm, fun _ _ _ => List.not_mem_nil⟩

/-- One event recorded, which is no memory write. -/
theorem NoStore.of_event {s t : State} {e : Event} (hm : t.mem = s.mem) (hl : t.log = s.log ++ [e])
    (he : ∀ a v dropped, Event.memWrite a v dropped ≠ e) : NoStore s t :=
  ⟨hm, [e], hl, fun a v dropped => mt List.mem_singleton.1 (he a v dropped)⟩

theorem State.aluDiscard_noStore (s : State) (fn : AluFn) (q : Pair) : NoStore s (s.aluDiscard fn q) := by
  cases q <;> exact .of_eq rfl rfl

theorem State.logicDiscard_noStore (s : State) (fn : LogicFn) (q : Pair) : NoStore s (s.logicDiscard fn q) := by
  cases q <;> exact .of_eq rfl rfl

theorem State.jumpIf_noStore (s : State) (c : Bool) (d : Byte) : NoStore s (s.jumpIf c d) := by
  cases c <;> exact .of_eq rfl rfl

theorem State.loopIf_noStore (s : State) (c : Bool) (d : Byte) : NoStore s (s.loopIf c d) :=
  ⟨(State.jumpIf_noStore _ _ d).mem, (State.jumpIf_noStore _ _ d).log⟩

theorem State.inAcc_noStore (s : State) (w : Width) (port : Word) : NoStore s (s.inAcc w port) := by
  cases w <;> exact .of_event rfl rfl nofun

theorem State.outAcc_noStore (s : State) (w : Width) (port : Word) : NoStore s (s.outAcc w port) := by
  cases w <;> exact .of_event rfl rfl nofun

/-- Everything a meaning can answer, of memory: the instruction may store, or nothing is stored. -/
inductive StoreAnswer (i : Instr) (s : State) : Result → Prop where
  | stores (r : Result) (h : mayStore i = true) : StoreAnswer i s r
  | next (t : State) (h : NoStore s t) : StoreAnswer i s (.next t)
  | fault (e : Fault) : StoreAnswer i s (.fault e)
  | refused (e : Refusal) : StoreAnswer i s (.refused e)

/-- The report of a generic instruction is an event, but no memory write (30_encoding.md R182). -/
theorem StoreAnswer.generic {i : Instr} {s : State} (bytes : List Byte) : StoreAnswer i s (s.genericEffect bytes) := by
  unfold State.genericEffect
  cases s.params.unknownMode with
  | noopReport => exact .next _ (.of_event rfl rfl nofun)
  | fault => exact .fault _

/-- What the meaning of any instruction answers, of memory. -/
theorem exec_storeAnswer (i : Instr) (s : State) : StoreAnswer i s (exec i s) := by
  cases i with
  | add p f | lor p f | adc p f | sbb p f | land p f | sub p f | lxor p f | inc p f | dec p f | neg p f | lnot p f
  | movRm p f | movFromSeg p e g | movMoffsAcc p w off | movRmImm p f | xchgRm p f | pushRw p r | pushSr p g
  | pushRm p e | popRm p e | pushf p | callNear p d | callFar p off sel | callRm p e | callMem p m | int p n | int3 p
  | into p => exact .stores _ rfl
  | cmp p f => exact .next _ (s.aluDiscard_noStore _ _)
  | test p f => exact .next _ (s.logicDiscard_noStore _ _)
  | movAccMoffs p w off => cases w <;> exact .next _ (.of_eq rfl rfl)
  | cbw p | cwd p | movToSeg p g e | movRbIb p r v | movRwIw p r v | xchgAx p r | nop p | lea p g m | lds p g m
  | les p g m | xlat p | popRw p r | popSr p g | popf p | lahf p | sahf p | clc p | stc p | cmc p | cli p | sti p
  | cld p | std p | hlt p | jmpShort p d | jmpNear p d | jmpFar p off sel | jmpRm p e | jmpMem p m | ret p | retImm p v
  | retf p | retfImm p v | iret p => exact .next _ (.of_eq rfl rfl)
  | inImm p w port | inDx p w => exact .next _ (s.inAcc_noStore _ _)
  | outImm p w port | outDx p w => exact .next _ (s.outAcc_noStore _ _)
  | jo p d | jno p d | jb p d | jnb p d | jz p d | jnz p d | jbe p d | ja p d | js p d | jns p d | jp p d | jnp p d
  | jl p d | jge p d | jle p d | jg p d | jcxz p d => exact .next _ (s.jumpIf_noStore _ _)
  | loop p d | loope p d | loopne p d => exact .next _ (s.loopIf_noStore _ _)
  | daa p | das p | aaa p | aas p | wait p | movsb p | movsw p | cmpsb p | cmpsw p | stosb p | stosw p | lodsb p
  | lodsw p | scasb p | scasw p | aam p | aad p | lock p | shiftRotate p f | esc p k | mul p w md rm | imul p w md rm
  | div p w md rm | idiv p w md rm => exact .refused _
  | segByte p g | repneByte p | repByte p | generic p u => exact .generic _

/-- Settles O49: by what each instruction answers (`exec_storeAnswer`). -/
theorem onlyStoringInstructionsChangeMemory : Obligations.OnlyStoringInstructionsChangeMemory := by
  unfold Obligations.OnlyStoringInstructionsChangeMemory
  intro i s t h hs
  have a := exec_storeAnswer i s
  rw [h] at a
  cases a with
  | stores _ hm => exact absurd (hs.symm.trans hm) Bool.false_ne_true
  | next _ k => exact ⟨k.mem, k.log⟩

end Sys2Proof.Machine
end

section
/-! O50 (20_memory.md R85, R86, 70_reset_and_hazards.md R546): a step keeps the read-only region. The canonical form is
carried along, since a read after a write is known of canonical memory only. -/

namespace Sys2Proof.Machine

/-- From canonical memory: canonical memory with the same bytes in the read-only region. -/
structure RomKept (s t : State) : Prop where
  wf : s.mem.wf = true → t.mem.wf = true
  rom : s.mem.wf = true → ∀ a, inRom a = true → t.read8 a = s.read8 a

/-- What leaves memory alone keeps the region. -/
theorem RomKept.of_mem_eq {s t : State} (h : t.mem = s.mem) : RomKept s t :=
  ⟨fun e => h ▸ e, fun _ a _ => congrArg (fun m : Memory => m.read a.toNat) h⟩

theorem RomKept.trans {s t u : State} (h : RomKept s t) (k : RomKept t u) : RomKept s u :=
  ⟨fun e => k.wf (h.wf e), fun e a r => (k.rom (h.wf e) a r).trans (h.rom e a r)⟩

/-- What an instruction or an interrupt entry keeps, from a state with the same memory. -/
theorem Kept.romKept {s u t : State} (k : Kept u t) (hm : u.mem = s.mem) : RomKept s t :=
  (RomKept.of_mem_eq hm).trans ⟨k.wf, k.rom⟩

/-- An instruction executed and the tick ended, whose trap pushes keep the region too. -/
theorem exec_finish_romKept {i : Instr} {s u t : State} {tf0 : Bool} (he : exec i u = .next t) (hm : u.mem = s.mem) :
    RomKept s (t.finish tf0) :=
  ((exec_kept he).romKept hm).trans ((t.finish_kept tf0).romKept rfl)

theorem Stepped.romKept {s t : State} (h : Stepped s t) : RomKept s t := by
  cases h with
  | waiting | unchanged | toWait => exact .of_mem_eq rfl
  | nmi => exact (State.interrupt_kept _ 2 .nmi).romKept rfl
  | intr _ n => exact (State.interrupt_kept _ n .intr).romKept rfl
  | ran _ d dq _ u he => exact exec_finish_romKept he rfl
  | resumed d pq0 _ u he => exact exec_finish_romKept he rfl

/-- Settles O50: each of the things a step can have done (`Stepped`) keeps the region. -/
theorem stepKeepsReadOnlyMemory : Obligations.StepKeepsReadOnlyMemory := by
  unfold Obligations.StepKeepsReadOnlyMemory
  intro s t a hwf h ha
  exact (step_next h).romKept.rom hwf a (decide_eq_true ha)

end Sys2Proof.Machine
end

section
/-! O53 (30_encoding.md R142, R143, R195 to R202): the decoder reads back what the encoder writes. A rule per field reader
with its operand at its width, then every constructor of `Instr`, then the chain of prefixes. -/

namespace Sys2Proof

/-! ### ModRM forms at their width -/

section Readers

variable {g : Oct} {t : List Byte}

theorem withRM_encodeEb {e : Ea Reg8} (h : e.wellFormed = true) (f : Oct → Ea Oct → Instr) :
    withRM (encodeEb g e ++ t) f = some (f g (e.map Reg8.code)) :=
  withRM_encode g _ t f ((Ea.map_wellFormed _ e).trans h)

theorem withRM_encodeEv {e : Ea Reg16} (h : e.wellFormed = true) (f : Oct → Ea Oct → Instr) :
    withRM (encodeEv g e ++ t) f = some (f g (e.map Reg16.code)) :=
  withRM_encode g _ t f ((Ea.map_wellFormed _ e).trans h)

theorem withRM8_encodeEb {e : Ea Reg8} (h : e.wellFormed = true) (v : Byte) (f : Oct → Ea Oct → Byte → Instr) :
    withRM8 (encodeEb g e ++ v :: t) f = some (f g (e.map Reg8.code) v) :=
  withRM8_encode g _ v t f ((Ea.map_wellFormed _ e).trans h)

theorem withRM8_encodeEv {e : Ea Reg16} (h : e.wellFormed = true) (v : Byte) (f : Oct → Ea Oct → Byte → Instr) :
    withRM8 (encodeEv g e ++ v :: t) f = some (f g (e.map Reg16.code) v) :=
  withRM8_encode g _ v t f ((Ea.map_wellFormed _ e).trans h)

theorem withRM16_encodeEv {e : Ea Reg16} (h : e.wellFormed = true) (v : Word) (f : Oct → Ea Oct → Word → Instr) :
    withRM16 (encodeEv g e ++ (leBytes v ++ t)) f = some (f g (e.map Reg16.code) v) :=
  withRM16_encode g _ v t f ((Ea.map_wellFormed _ e).trans h)

theorem withMem_encodeM {p : List Pfx} {op : Byte} {m : MemRef} (h : m.wellFormed = true) (f : Oct → MemRef → Instr) :
    withMem p op (encodeM g m ++ t) f = some (f g m) :=
  withMem_encode p op g m t f h

end Readers

/-! ### Groups -/

/-- The bytes begin with a ModRM byte of this `reg` field, which a group looks at before it reads the form. -/
def BeginsWithReg (g : Oct) (q : List Byte) : Prop := ∃ m u, q = m :: u ∧ mid3 m = g

@[simp] theorem beginsWithReg_encodeEb (g : Oct) (e : Ea Reg8) (t : List Byte) : BeginsWithReg g (encodeEb g e ++ t) :=
  encodeModRM_mid3 g _ t

@[simp] theorem beginsWithReg_encodeEv (g : Oct) (e : Ea Reg16) (t : List Byte) : BeginsWithReg g (encodeEv g e ++ t) :=
  encodeModRM_mid3 g _ t

@[simp] theorem beginsWithReg_encodeM (g : Oct) (m : MemRef) (t : List Byte) : BeginsWithReg g (encodeM g m ++ t) :=
  encodeModRM_mid3 g _ t

section Groups

variable {p : List Pfx} {op : Byte} {q : List Byte}

theorem onlyReg0_eq {k : Option Instr} (h : BeginsWithReg .o0 q) : onlyReg0 p op q k = k := by
  obtain ⟨m, u, rfl, hm⟩ := h
  simp only [onlyReg0, hm]

theorem decode8C_eq {s : SReg} (h : BeginsWithReg s.code q) :
    decode8C p q = withRM q fun _ e => .movFromSeg p e.wordReg s := by
  obtain ⟨m, u, rfl, hm⟩ := h
  simp only [decode8C, hm, SReg.ofOct_code]

theorem decode8E_eq {s : SReg} (hs : s ≠ .cs) (h : BeginsWithReg s.code q) :
    decode8E p q = withRM q fun _ e => .movToSeg p s e.wordReg := by
  obtain ⟨m, u, rfl, hm⟩ := h
  simp only [decode8E, hm, SReg.ofOct_code]

section Group3

variable {w : Width} {test0 : Option Instr} {unary : Ea Oct → UnaryForm}

theorem decodeGroup3_test (h : BeginsWithReg .o0 q) : decodeGroup3 p op w q test0 unary = test0 := by
  obtain ⟨m, u, rfl, hm⟩ := h
  simp only [decodeGroup3, hm]

theorem decodeGroup3_not (h : BeginsWithReg .o2 q) :
    decodeGroup3 p op w q test0 unary = withRM q fun _ e => .lnot p (unary e) := by
  obtain ⟨m, u, rfl, hm⟩ := h
  simp only [decodeGroup3, hm]

theorem decodeGroup3_neg (h : BeginsWithReg .o3 q) :
    decodeGroup3 p op w q test0 unary = withRM q fun _ e => .neg p (unary e) := by
  obtain ⟨m, u, rfl, hm⟩ := h
  simp only [decodeGroup3, hm]

end Group3

theorem decodeGroup4_inc (h : BeginsWithReg .o0 q) : decodeGroup4 p q = withRM q fun _ e => .inc p (.eb e.byteReg) := by
  obtain ⟨m, u, rfl, hm⟩ := h
  simp only [decodeGroup4, hm]

theorem decodeGroup4_dec (h : BeginsWithReg .o1 q) : decodeGroup4 p q = withRM q fun _ e => .dec p (.eb e.byteReg) := by
  obtain ⟨m, u, rfl, hm⟩ := h
  simp only [decodeGroup4, hm]

theorem decodeGroup5_inc (h : BeginsWithReg .o0 q) : decodeGroup5 p q = withRM q fun _ e => .inc p (.ev e.wordReg) := by
  obtain ⟨m, u, rfl, hm⟩ := h
  simp only [decodeGroup5, hm]

theorem decodeGroup5_dec (h : BeginsWithReg .o1 q) : decodeGroup5 p q = withRM q fun _ e => .dec p (.ev e.wordReg) := by
  obtain ⟨m, u, rfl, hm⟩ := h
  simp only [decodeGroup5, hm]

theorem decodeGroup5_callRm (h : BeginsWithReg .o2 q) : decodeGroup5 p q = withRM q fun _ e => .callRm p e.wordReg := by
  obtain ⟨m, u, rfl, hm⟩ := h
  simp only [decodeGroup5, hm]

theorem decodeGroup5_callMem (h : BeginsWithReg .o3 q) : decodeGroup5 p q = withMem p 0xFF q fun _ r => .callMem p r := by
  obtain ⟨m, u, rfl, hm⟩ := h
  simp only [decodeGroup5, hm]

theorem decodeGroup5_jmpRm (h : BeginsWithReg .o4 q) : decodeGroup5 p q = withRM q fun _ e => .jmpRm p e.wordReg := by
  obtain ⟨m, u, rfl, hm⟩ := h
  simp only [decodeGroup5, hm]

theorem decodeGroup5_jmpMem (h : BeginsWithReg .o5 q) : decodeGroup5 p q = withMem p 0xFF q fun _ r => .jmpMem p r := by
  obtain ⟨m, u, rfl, hm⟩ := h
  simp only [decodeGroup5, hm]

theorem decodeGroup5_pushRm (h : BeginsWithReg .o6 q) : decodeGroup5 p q = withRM q fun _ e => .pushRm p e.wordReg := by
  obtain ⟨m, u, rfl, hm⟩ := h
  simp only [decodeGroup5, hm]

end Groups

/-! ### Unknown group encodings (30_encoding.md R191) -/

section UnknownGroups

variable {p : List Pfx} {t : List Byte} {op m : Byte}

theorem decode8C_unknown (h : 4 ≤ (mid3 m).toNat) : decode8C p (m :: t) = some (.generic p (.group 0x8C m)) := by
  simp only [decode8C]
  generalize mid3 m = g at h
  cases g with
  | o0 | o1 | o2 | o3 => exact absurd h (by decide)
  | o4 | o5 | o6 | o7 => rfl

theorem decode8E_unknown (h : (mid3 m).toNat = 1 ∨ 4 ≤ (mid3 m).toNat) :
    decode8E p (m :: t) = some (.generic p (.group 0x8E m)) := by
  simp only [decode8E]
  generalize mid3 m = g at h
  cases g with
  | o0 | o2 | o3 => exact absurd h (by decide)
  | o1 | o4 | o5 | o6 | o7 => rfl

theorem onlyReg0_unknown {k : Option Instr} (h : (mid3 m).toNat ≠ 0) :
    onlyReg0 p op (m :: t) k = some (.generic p (.group op m)) := by
  simp only [onlyReg0]
  generalize mid3 m = g at h
  cases g with
  | o0 => exact absurd rfl h
  | o1 | o2 | o3 | o4 | o5 | o6 | o7 => rfl

theorem decodeGroup3_unknown {w : Width} {test0 : Option Instr} {unary : Ea Oct → UnaryForm}
    (h : (mid3 m).toNat = 1) : decodeGroup3 p op w (m :: t) test0 unary = some (.generic p (.group op m)) := by
  simp only [decodeGroup3]
  generalize mid3 m = g at h
  cases g with
  | o1 => rfl
  | o0 | o2 | o3 | o4 | o5 | o6 | o7 => exact absurd h (by decide)

theorem decodeGroup4_unknown (h : 2 ≤ (mid3 m).toNat) :
    decodeGroup4 p (m :: t) = some (.generic p (.group 0xFE m)) := by
  simp only [decodeGroup4]
  generalize mid3 m = g at h
  cases g with
  | o0 | o1 => exact absurd h (by decide)
  | o2 | o3 | o4 | o5 | o6 | o7 => rfl

/-- A memory-only form with mod = 11 (30_encoding.md R202). -/
theorem withMem_unknown {f : Oct → MemRef → Instr} (h : (top2 m).toNat = 3) :
    withMem p op (m :: t) f = some (.generic p (.group op m)) := by
  simp only [withMem]
  generalize top2 m = x at h
  cases x with
  | q3 => rfl
  | q0 | q1 | q2 => exact absurd h (by decide)

theorem decodeGroup5_unknown
    (h : (mid3 m).toNat = 7 ∨ ((mid3 m).toNat = 3 ∨ (mid3 m).toNat = 5) ∧ (top2 m).toNat = 3) :
    decodeGroup5 p (m :: t) = some (.generic p (.group 0xFF m)) := by
  simp only [decodeGroup5]
  generalize mid3 m = g at h
  cases g with
  | o0 | o1 | o2 | o4 | o6 => exact absurd h (by simp [Oct.toNat])
  | o3 => exact withMem_unknown (h.resolve_left (by decide)).2
  | o5 => exact withMem_unknown (h.resolve_left (by decide)).2
  | o7 => rfl

/-- Every unknown group encoding is read by the arm of its opcode. -/
theorem decodeOp_unknownGroup (h : isUnknownGroup op m = true) :
    decodeOp p op (m :: t) = some (.generic p (.group op m)) := by
  simp only [isUnknownGroup, ← mid3_toNat, ← top2_toNat] at h
  split_ifs at h with h8C h8E h1 h3 hFE hFF hM <;>
    simp only [Bool.or_eq_true, Bool.and_eq_true, beq_iff_eq, bne_iff_ne, decide_eq_true_eq] at *
  · subst h8C; exact decode8C_unknown h
  · subst h8E; exact decode8E_unknown h
  · rcases h1 with (rfl | rfl) | rfl <;> exact onlyReg0_unknown (t := t) h
  · rcases h3 with rfl | rfl <;> exact decodeGroup3_unknown h
  · subst hFE; exact decodeGroup4_unknown h
  · subst hFF; exact decodeGroup5_unknown h
  · rcases hM with (rfl | rfl) | rfl
    · exact withMem_unknown (f := fun g r => .lea p (Reg16.ofOct g) r) h
    · exact withMem_unknown (f := fun g r => .les p (Reg16.ofOct g) r) h
    · exact withMem_unknown (f := fun g r => .lds p (Reg16.ofOct g) r) h

/-- The unknown bytes 0x60 to 0x6F. -/
theorem octal_of_and_F0 : ∀ b : Byte, b &&& 0xF0 = 0x60 → b = octal .q1 .o4 (low3 b) ∨ b = octal .q1 .o5 (low3 b) := by
  decide

/-- Every unknown first byte decodes to itself (30_encoding.md R191). -/
theorem decodeOp_unknownByte {b : Byte} (h : isUnknownByte b = true) :
    decodeOp p b t = some (.generic p (.byte b)) := by
  simp only [isUnknownByte, Bool.or_eq_true, beq_iff_eq] at h
  rcases h with ((((((rfl | h) | rfl) | rfl) | rfl) | rfl) | rfl) | rfl
  case inl.inl.inl.inl.inl.inl.inr =>
    rcases octal_of_and_F0 b h with hb | hb <;> rw [hb, decodeOp_octal] <;> rfl
  all_goals rfl

end UnknownGroups

/-! ### Every instruction -/

/-- The opcode map reads the instruction back from its body, whatever follows. -/
def Instr.ReadBack (i : Instr) : Prop := ∃ op t, i.body = op :: t ∧ ∀ rest, decodeOp i.pfx op (t ++ rest) = some i

/-- A body read back by the arm of the opcode's fields. -/
theorem Instr.ReadBack.of_fields {i : Instr} {t : List Byte} (x : Quad) (y z : Oct) (hb : i.body = octal x y z :: t)
    (h : ∀ rest, (match x with
      | .q0 => decode0 i.pfx y z (t ++ rest)
      | .q1 => decode1 i.pfx y z (t ++ rest)
      | .q2 => decode2 i.pfx y z (t ++ rest)
      | .q3 => decode3 i.pfx y z (t ++ rest)) = some i) : i.ReadBack :=
  ⟨_, t, hb, fun rest => (decodeOp_octal ..).trans (h rest)⟩

@[simp] theorem aluOf_pfx (k : Oct) (p : List Pfx) (f : AluForm) : (aluOf k p f).pfx = p := by
  cases k <;> rfl

theorem aluOf_body (k : Oct) (p : List Pfx) (f : AluForm) : (aluOf k p f).body = f.encode k := by
  cases k <;> rfl

/-- The operand forms of the eight two-operand operations (41_arith_logic.md R271). -/
theorem aluOf_readBack (p : List Pfx) (k : Oct) {f : AluForm} (h : f.wellFormed = true) : (aluOf k p f).ReadBack := by
  cases f with
  | ebGb e g => exact .of_fields .q0 k .o0 (aluOf_body ..) (by simp [decode0, withRM_encodeEb h])
  | evGv e g => exact .of_fields .q0 k .o1 (aluOf_body ..) (by simp [decode0, withRM_encodeEv h])
  | gbEb g e => exact .of_fields .q0 k .o2 (aluOf_body ..) (by simp [decode0, withRM_encodeEb h])
  | gvEv g e => exact .of_fields .q0 k .o3 (aluOf_body ..) (by simp [decode0, withRM_encodeEv h])
  | alIb v => exact .of_fields .q0 k .o4 (aluOf_body ..) (by simp [decode0])
  | axIw v => exact .of_fields .q0 k .o5 (aluOf_body ..) (by simp [decode0])
  | ebIb e v => exact .of_fields .q2 .o0 .o0 (aluOf_body ..) (by simp [decode2, withRM8_encodeEb h])
  | evIw e v => exact .of_fields .q2 .o0 .o1 (aluOf_body ..) (by simp [decode2, withRM16_encodeEv h])
  | ebIbAlias e v => exact .of_fields .q2 .o0 .o2 (aluOf_body ..) (by simp [decode2, withRM8_encodeEb h])
  | evIbs e v => exact .of_fields .q2 .o0 .o3 (aluOf_body ..) (by simp [decode2, withRM8_encodeEv h])

/-- Every well-formed instruction is read back; the fields named are those of its opcode (30_encoding.md R195). -/
theorem Instr.readBack {i : Instr} (h : i.operandsWellFormed = true) : i.ReadBack := by
  cases i with
  | add p f => exact aluOf_readBack p .o0 h
  | lor p f => exact aluOf_readBack p .o1 h
  | adc p f => exact aluOf_readBack p .o2 h
  | sbb p f => exact aluOf_readBack p .o3 h
  | land p f => exact aluOf_readBack p .o4 h
  | sub p f => exact aluOf_readBack p .o5 h
  | lxor p f => exact aluOf_readBack p .o6 h
  | cmp p f => exact aluOf_readBack p .o7 h
  | test p f =>
    cases f with
    | ebGb e g => exact .of_fields .q2 .o0 .o4 rfl (by simp [Instr.pfx, decode2, withRM_encodeEb h])
    | evGv e g => exact .of_fields .q2 .o0 .o5 rfl (by simp [Instr.pfx, decode2, withRM_encodeEv h])
    | alIb v => exact .of_fields .q2 .o5 .o0 rfl (by simp [Instr.pfx, decode2])
    | axIw v => exact .of_fields .q2 .o5 .o1 rfl (by simp [Instr.pfx, decode2])
    | ebIb e v =>
      exact .of_fields .q3 .o6 .o6 rfl (by simp [Instr.pfx, decode3, decodeGroup3_test, withRM8_encodeEb h])
    | evIw e v =>
      exact .of_fields .q3 .o6 .o7 rfl (by simp [Instr.pfx, decode3, decodeGroup3_test, withRM16_encodeEv h])
  | inc p f =>
    cases f with
    | rw r => exact .of_fields .q1 .o0 r.code rfl (by simp [Instr.pfx, decode1])
    | eb e => exact .of_fields .q3 .o7 .o6 rfl (by simp [Instr.pfx, decode3, decodeGroup4_inc, withRM_encodeEb h])
    | ev e => exact .of_fields .q3 .o7 .o7 rfl (by simp [Instr.pfx, decode3, decodeGroup5_inc, withRM_encodeEv h])
  | dec p f =>
    cases f with
    | rw r => exact .of_fields .q1 .o1 r.code rfl (by simp [Instr.pfx, decode1])
    | eb e => exact .of_fields .q3 .o7 .o6 rfl (by simp [Instr.pfx, decode3, decodeGroup4_dec, withRM_encodeEb h])
    | ev e => exact .of_fields .q3 .o7 .o7 rfl (by simp [Instr.pfx, decode3, decodeGroup5_dec, withRM_encodeEv h])
  | neg p f =>
    cases f with
    | eb e => exact .of_fields .q3 .o6 .o6 rfl (by simp [Instr.pfx, decode3, decodeGroup3_neg, withRM_encodeEb h])
    | ev e => exact .of_fields .q3 .o6 .o7 rfl (by simp [Instr.pfx, decode3, decodeGroup3_neg, withRM_encodeEv h])
  | lnot p f =>
    cases f with
    | eb e => exact .of_fields .q3 .o6 .o6 rfl (by simp [Instr.pfx, decode3, decodeGroup3_not, withRM_encodeEb h])
    | ev e => exact .of_fields .q3 .o6 .o7 rfl (by simp [Instr.pfx, decode3, decodeGroup3_not, withRM_encodeEv h])
  | movRm p f =>
    cases f with
    | ebGb e g => exact .of_fields .q2 .o1 .o0 rfl (by simp [Instr.pfx, decode2, withRM_encodeEb h])
    | evGv e g => exact .of_fields .q2 .o1 .o1 rfl (by simp [Instr.pfx, decode2, withRM_encodeEv h])
    | gbEb g e => exact .of_fields .q2 .o1 .o2 rfl (by simp [Instr.pfx, decode2, withRM_encodeEb h])
    | gvEv g e => exact .of_fields .q2 .o1 .o3 rfl (by simp [Instr.pfx, decode2, withRM_encodeEv h])
  | movFromSeg p e s =>
    exact .of_fields .q2 .o1 .o4 rfl (by simp [Instr.pfx, decode2, decode8C_eq (s := s), withRM_encodeEv h])
  | movToSeg p s e =>
    obtain ⟨hs, he⟩ := Bool.and_eq_true_iff.1 h
    exact .of_fields .q2 .o1 .o6 rfl
      (by simp [Instr.pfx, decode2, decode8E_eq (bne_iff_ne.1 hs), withRM_encodeEv he])
  | movAccMoffs p w off =>
    cases w with
    | byte => exact .of_fields .q2 .o4 .o0 rfl (by simp [Instr.pfx, decode2])
    | word => exact .of_fields .q2 .o4 .o1 rfl (by simp [Instr.pfx, decode2])
  | movMoffsAcc p w off =>
    cases w with
    | byte => exact .of_fields .q2 .o4 .o2 rfl (by simp [Instr.pfx, decode2])
    | word => exact .of_fields .q2 .o4 .o3 rfl (by simp [Instr.pfx, decode2])
  | movRbIb p r v => exact .of_fields .q2 .o6 r.code rfl (by simp [Instr.pfx, decode2])
  | movRwIw p r v => exact .of_fields .q2 .o7 r.code rfl (by simp [Instr.pfx, decode2])
  | movRmImm p f =>
    cases f with
    | ebIb e v => exact .of_fields .q3 .o0 .o6 rfl (by simp [Instr.pfx, decode3, onlyReg0_eq, withRM8_encodeEb h])
    | evIw e v => exact .of_fields .q3 .o0 .o7 rfl (by simp [Instr.pfx, decode3, onlyReg0_eq, withRM16_encodeEv h])
  | xchgRm p f =>
    cases f with
    | ebGb e g => exact .of_fields .q2 .o0 .o6 rfl (by simp [Instr.pfx, decode2, withRM_encodeEb h])
    | evGv e g => exact .of_fields .q2 .o0 .o7 rfl (by simp [Instr.pfx, decode2, withRM_encodeEv h])
  | xchgAx p r =>
    cases r with
    | ax => cases h
    | cx | dx | bx | sp | bp | si | di => exact ⟨_, _, rfl, fun _ => rfl⟩
  | lea p g m => exact .of_fields .q2 .o1 .o5 rfl (by simp [Instr.pfx, decode2, withMem_encodeM h])
  | lds p g m => exact .of_fields .q3 .o0 .o5 rfl (by simp [Instr.pfx, decode3, withMem_encodeM h])
  | les p g m => exact .of_fields .q3 .o0 .o4 rfl (by simp [Instr.pfx, decode3, withMem_encodeM h])
  | pushRw p r => exact .of_fields .q1 .o2 r.code rfl (by simp [Instr.pfx, decode1])
  | popRw p r => exact .of_fields .q1 .o3 r.code rfl (by simp [Instr.pfx, decode1])
  | pushSr p s => cases s <;> exact ⟨_, _, rfl, fun _ => rfl⟩
  | popSr p s =>
    cases s with
    | cs => cases h
    | es | ss | ds => exact ⟨_, _, rfl, fun _ => rfl⟩
  | pushRm p e => exact .of_fields .q3 .o7 .o7 rfl (by simp [Instr.pfx, decode3, decodeGroup5_pushRm, withRM_encodeEv h])
  | popRm p e => exact .of_fields .q2 .o1 .o7 rfl (by simp [Instr.pfx, decode2, onlyReg0_eq, withRM_encodeEv h])
  | jmpRm p e => exact .of_fields .q3 .o7 .o7 rfl (by simp [Instr.pfx, decode3, decodeGroup5_jmpRm, withRM_encodeEv h])
  | callRm p e =>
    exact .of_fields .q3 .o7 .o7 rfl (by simp [Instr.pfx, decode3, decodeGroup5_callRm, withRM_encodeEv h])
  | jmpMem p m => exact .of_fields .q3 .o7 .o7 rfl (by simp [Instr.pfx, decode3, decodeGroup5_jmpMem, withMem_encodeM h])
  | callMem p m =>
    exact .of_fields .q3 .o7 .o7 rfl (by simp [Instr.pfx, decode3, decodeGroup5_callMem, withMem_encodeM h])
  | jmpNear p d => exact .of_fields .q3 .o5 .o1 rfl (by simp [Instr.pfx, decode3])
  | callNear p d => exact .of_fields .q3 .o5 .o0 rfl (by simp [Instr.pfx, decode3])
  | retImm p v => exact .of_fields .q3 .o0 .o2 rfl (by simp [Instr.pfx, decode3])
  | retfImm p v => exact .of_fields .q3 .o1 .o2 rfl (by simp [Instr.pfx, decode3])
  | jmpFar p off sel => exact .of_fields .q3 .o5 .o2 rfl (by simp [Instr.pfx, decode3])
  | callFar p off sel => exact .of_fields .q2 .o3 .o2 rfl (by simp [Instr.pfx, decode2])
  | inImm p w v | inDx p w | outImm p w v | outDx p w => cases w <;> exact ⟨_, _, rfl, fun _ => rfl⟩
  | shiftRotate p f => cases f <;> exact ⟨_, _, rfl, fun _ => rfl⟩
  | esc p k => exact .of_fields .q3 .o3 k rfl (by simp [Instr.pfx, decode3])
  | mul p w md rm | imul p w md rm | div p w md rm | idiv p w md rm =>
    cases w with
    | byte => exact .of_fields .q3 .o6 .o6 rfl (by simp [Instr.pfx, decode3, decodeGroup3])
    | word => exact .of_fields .q3 .o6 .o7 rfl (by simp [Instr.pfx, decode3, decodeGroup3])
  | segByte p s => cases s <;> exact ⟨_, _, rfl, fun _ => rfl⟩
  | generic p u =>
    cases u with
    | byte b => exact ⟨b, [], rfl, fun _ => decodeOp_unknownByte h⟩
    | group op m => exact ⟨op, [m], rfl, fun _ => decodeOp_unknownGroup h⟩
  | cbw p | cwd p | nop p | xlat p | pushf p | popf p | lahf p | sahf p | jo p d | jno p d | jb p d | jnb p d | jz p d
  | jnz p d | jbe p d | ja p d | js p d | jns p d | jp p d | jnp p d | jl p d | jge p d | jle p d | jg p d | jmpShort p d
  | loop p d | loope p d | loopne p d | jcxz p d | ret p | retf p | int p n | int3 p | into p | iret p | clc p | stc p
  | cmc p | cli p | sti p | cld p | std p | hlt p | daa p | das p | aaa p | aas p | wait p | movsb p | movsw p | cmpsb p
  | cmpsw p | stosb p | stosw p | lodsb p | lodsw p | scasb p | scasw p | aam p | aad p | lock p | repneByte p
  | repByte p => exact ⟨_, _, rfl, fun _ => rfl⟩

/-! ### The chain of prefixes -/

/-- A prefix byte in the opcode position gives the constructor that stands for it (30_encoding.md R152). -/
theorem decodeOp_prefixByte (p : List Pfx) (x : Pfx) (t : List Byte) :
    ∃ j, decodeOp p x.byte t = some j ∧ j.isPrefixByte = true := by
  cases x with
  | seg s => cases s <;> exact ⟨_, rfl, rfl⟩
  | repne | rep => exact ⟨_, rfl, rfl⟩

/-- No other instruction begins with a prefix byte. -/
theorem ofByte_eq_none_of_decodeOp {p : List Pfx} {op : Byte} {t : List Byte} {i : Instr}
    (h : decodeOp p op t = some i) (hn : i.isPrefixByte = false) : Pfx.ofByte op = none := by
  by_contra hne
  obtain ⟨x, hx⟩ := Option.ne_none_iff_exists'.1 hne
  obtain ⟨j, hj, hp⟩ := decodeOp_prefixByte p x t
  rw [Pfx.byte_of_ofByte hx, h] at hj
  cases hj
  exact Bool.false_ne_true (hn.symm.trans hp)

/-- The chain before an instruction ends where the decoder's loop does (30_encoding.md R151, R152). -/
theorem Instr.prefixes_end {i : Instr} {op : Byte} {t : List Byte} (h : i.prefixesWellFormed = true)
    (hd : decodeOp i.pfx op t = some i) :
    i.pfx.length = Config.maxPrefixes ∨ i.pfx.length < Config.maxPrefixes ∧ Pfx.ofByte op = none := by
  unfold Instr.prefixesWellFormed at h
  split at h
  · exact .inl (beq_iff_eq.1 h)
  · next hn =>
    have hle := of_decide_eq_true h
    exact hle.eq_or_lt.imp_right fun hlt => ⟨hlt, ofByte_eq_none_of_decodeOp hd (Bool.eq_false_iff.2 hn)⟩

/-- Settles O53: the prefix loop reads back the chain (`decode_encode`), and the opcode map the body
(`Instr.readBack`). -/
theorem decodeReadsBackEveryEncoding : Obligations.DecodeReadsBackEveryEncoding := by
  unfold Obligations.DecodeReadsBackEveryEncoding
  intro i rest h
  obtain ⟨ho, hp⟩ := Bool.and_eq_true_iff.1 h
  obtain ⟨op, t, hb, hd⟩ := Instr.readBack ho
  rw [Instr.encode, hb, List.append_assoc, List.cons_append, decode_encode _ _ _ (Instr.prefixes_end hp (hd rest))]
  exact hd rest

end Sys2Proof
end

section
/-! O5, O6 (30_encoding.md R153, R154, R162, R163, R165): the effective address in numbers, and the segment register of a
memory operand. -/

namespace Sys2Proof.Machine

/-- Sign extension to a word, modulo 2^16. -/
theorem add_sext16_toNat (w : Word) (d : Byte) {n : Nat} (h : w.toNat = n % 2 ^ 16) :
    ((w + sext16 d).toNat : Int) = ((n : Int) + d.toInt) % 2 ^ 16 := by
  have hs : (sext16 d).toInt = d.toInt := BitVec.toInt_signExtend_of_le (by decide)
  rw [← hs, BitVec.toInt_eq_toNat_cond, BitVec.toNat_add]
  split <;> omega

/-- Settles O5: the sum of the base registers, then of the displacement, each modulo 2^16. -/
theorem effectiveAddressByRmAndMod : Obligations.EffectiveAddressByRmAndMod := by
  unfold Obligations.EffectiveAddressByRmAndMod
  intro s b d8 d16 a base seg
  have hbase : (s.baseSum b).toNat = base % 2 ^ 16 := by
    cases b with
    | bxsi | bxdi | bpsi | bpdi => exact BitVec.toNat_add _ _
    | si | di | bp | bx => exact (Nat.mod_eq_of_lt (BitVec.isLt _)).symm
  have hseg : baseSegment b = seg := by cases b <;> rfl
  have h16 : (s.baseSum b + d16).toNat = (base + d16.toNat) % 2 ^ 16 := by
    rw [BitVec.toNat_add, hbase, Nat.mod_add_mod]
  exact ⟨hbase, rfl, add_sext16_toNat _ _ hbase, h16, hseg, hseg, hseg, rfl⟩

/-- A repeat prefix leaves the override in force, a segment override replaces it (30_encoding.md R153, R154). -/
theorem segOverride_append_singleton (p : List Pfx) (x : Pfx) :
    segOverride (p ++ [x]) = match x with | .seg g => some g | _ => segOverride p := by
  unfold segOverride
  rw [List.foldl_append]
  cases x <;> rfl

/-- Prefixes that are no segment override leave the one in force (30_encoding.md R153). -/
theorem segOverride_append {q : List Pfx} (h : ∀ g, Pfx.seg g ∉ q) (p : List Pfx) :
    segOverride (p ++ q) = segOverride p := by
  induction q generalizing p with
  | nil => rw [List.append_nil]
  | cons x q ih =>
    have hq : ∀ g, Pfx.seg g ∉ q := fun g hg => h g (List.mem_cons_of_mem x hg)
    rw [List.append_cons, ih hq, segOverride_append_singleton]
    cases x with
    | seg g => exact absurd List.mem_cons_self (h g)
    | repne | rep => rfl

/-- With no segment override none is in force. -/
theorem segOverride_eq_none {q : List Pfx} (h : ∀ g, Pfx.seg g ∉ q) : segOverride q = none :=
  segOverride_append h []

/-- The last segment override is in force. -/
theorem segOverride_last (p : List Pfx) (g : SReg) {q : List Pfx} (h : ∀ g, Pfx.seg g ∉ q) :
    segOverride (p ++ .seg g :: q) = some g := by
  rw [List.append_cons, segOverride_append h, segOverride_append_singleton]

/-- Settles O6: the segment of the address is the one that `segOverride` names, or the default. -/
theorem lastSegmentOverrideIsInForce : Obligations.LastSegmentOverrideIsInForce := by
  unfold Obligations.LastSegmentOverrideIsInForce
  intro s p q m h
  refine ⟨fun g => ?_, ?_⟩
  · rw [State.memAddr, State.segVal, segFor, segOverride_last p g h, Option.getD_some]
  · rw [State.memAddr, State.segVal, segFor, segOverride_eq_none h, Option.getD_none]

end Sys2Proof.Machine
end

section
/-! O38 (30_encoding.md R192, 60_exceptions.md R483, R485): what refuses, and O39 (30_encoding.md R152, R180 to R182): the
generic instruction. -/

namespace Sys2Proof.Machine

open Sys2Proof.Claims

/-- Only a refused encoding refuses. -/
theorem isRefused_of_exec {i : Instr} {s : State} {r : Refusal} (h : exec i s = .refused r) : i.isRefused = true := by
  have a := exec_answers i s
  rw [h] at a
  cases a with
  | refused hr => exact hr

/-- ESC's eight opcodes (30_encoding.md R195). -/
theorem octal_esc (k : Oct) : octal .q3 .o3 k = BitVec.ofNat 8 (0xD8 + k.toNat) := by
  cases k <;> rfl

/-- Settles O38: each refused constructor refuses by its own meaning, and `isRefused_of_exec`. -/
theorem refusedEncodingsRefuseByOpcode : Obligations.RefusedEncodingsRefuseByOpcode := by
  unfold Obligations.RefusedEncodingsRefuseByOpcode
  intro p s
  refine ⟨⟨rfl, rfl, rfl, rfl⟩, ⟨rfl, rfl, rfl, rfl⟩, ⟨rfl, rfl, rfl, rfl⟩, ⟨rfl, rfl, rfl, rfl⟩, ⟨rfl, rfl⟩,
    ⟨rfl, rfl, rfl, rfl⟩, fun k => ?_, fun _ _ => ⟨rfl, rfl, rfl, rfl, rfl, rfl, rfl, rfl⟩, fun _ _ => isRefused_of_exec⟩
  rw [← octal_esc]
  rfl

/-- The generic instruction of prefixes `p` and opcode `op`, as its record and its meaning show it. -/
structure IsGeneric (i : Instr) (p : List Pfx) (op : Byte) : Prop where
  kind : i.kind = .generic
  opcode : i.opcode = op
  bytes : i.bytes = p.map Pfx.byte ++ [op]
  nprefix : i.nprefix = p.length
  writesPc : i.writesPc = false
  targetStatic : i.targetStatic = false
  meaning : ∀ s, exec i s = s.genericEffect i.bytes

theorem isGeneric_byte (p : List Pfx) (op : Byte) : IsGeneric (.generic p (.byte op)) p op :=
  ⟨rfl, rfl, rfl, rfl, rfl, rfl, fun _ => rfl⟩

theorem isGeneric_group (p : List Pfx) (op m : Byte) : IsGeneric (.generic p (.group op m)) p op :=
  ⟨rfl, rfl, rfl, rfl, rfl, rfl, fun _ => rfl⟩

theorem isGeneric_segByte (p : List Pfx) (g : SReg) : IsGeneric (.segByte p g) p (Pfx.seg g).byte :=
  ⟨rfl, rfl, rfl, rfl, rfl, rfl, fun _ => rfl⟩

theorem isGeneric_repneByte (p : List Pfx) : IsGeneric (.repneByte p) p 0xF2 :=
  ⟨rfl, rfl, rfl, rfl, rfl, rfl, fun _ => rfl⟩

theorem isGeneric_repByte (p : List Pfx) : IsGeneric (.repByte p) p 0xF3 :=
  ⟨rfl, rfl, rfl, rfl, rfl, rfl, fun _ => rfl⟩

section Generic

variable {i : Instr} {p : List Pfx} {op : Byte} {s : State}

theorem IsGeneric.bytes_length (h : IsGeneric i p op) : i.bytes.length = p.length + 1 := by
  rw [h.bytes, List.length_append, List.length_map, List.length_singleton]

/-- With UNKNOWN_MODE = noop_report (30_encoding.md R182). -/
theorem IsGeneric.reports (h : IsGeneric i p op) (hm : s.params.unknownMode = .noopReport) :
    Completes i s fun t => t.undefSeen = true ∧
      t.log = s.log ++ [.undefined (s.startAddr (p.length + 1)) (p.map Pfx.byte ++ [op])] ∧
      Frame { undefSeen := true } s t := by
  refine ⟨(s.withUndef true).record (.undefined (s.startAddr i.bytes.length) i.bytes), ?_, rfl, ?_, ?_⟩
  · rw [h.meaning, State.genericEffect, hm]
  · rw [h.bytes_length, h.bytes]
    rfl
  · exact (s.withUndef_frame true).trans (State.record_frame _ _)

/-- With UNKNOWN_MODE = fault (30_encoding.md R182). -/
theorem IsGeneric.faults (h : IsGeneric i p op) (hm : s.params.unknownMode = .fault) :
    exec i s = .fault (.undefinedInstruction (s.startAddr (p.length + 1)) (p.map Pfx.byte ++ [op])) := by
  rw [h.meaning, State.genericEffect, hm, h.bytes_length, h.bytes]

end Generic

/-- Settles O39: each of the eight rows is the generic instruction of its opcode (`IsGeneric`). -/
theorem genericInstructionReportsOrFaults : Obligations.GenericInstructionReportsOrFaults := by
  unfold Obligations.GenericInstructionReportsOrFaults
  intro p op m s row hrow
  have h : IsGeneric row.1 p row.2 := by
    simp only [List.mem_cons, List.not_mem_nil, or_false] at hrow
    rcases hrow with rfl | rfl | rfl | rfl | rfl | rfl | rfl | rfl
    · exact isGeneric_byte p op
    · exact isGeneric_group p op m
    · exact isGeneric_segByte p .es
    · exact isGeneric_segByte p .cs
    · exact isGeneric_segByte p .ss
    · exact isGeneric_segByte p .ds
    · exact isGeneric_repneByte p
    · exact isGeneric_repByte p
  exact ⟨h.kind, h.opcode, h.bytes, h.nprefix, h.bytes_length, h.writesPc, h.targetStatic, h.reports, h.faults⟩

end Sys2Proof.Machine
end

section
/-! O56 (30_encoding.md R195 to R202): six words of the spec. -/

namespace Sys2Proof

/-- Settles O56: the decoder run on each word. -/
theorem decodesWordsWrittenFromTheSpec : Obligations.DecodesWordsWrittenFromTheSpec := by
  unfold Obligations.DecodesWordsWrittenFromTheSpec
  decide

end Sys2Proof
end

section
/-! O48 (30_encoding.md R210, 10_state.md R38, 42_data_transfer.md R333, R334): which instructions move IP, and which
segment registers each may write. -/

namespace Sys2Proof.Machine

open Sys2Proof.Claims

/-- IP and the segment registers are the same. -/
structure PlaceKept (s t : State) : Prop where
  ip : t.ip = s.ip
  sregs : t.sregs = s.sregs

theorem PlaceKept.trans {s t u : State} (h : PlaceKept s t) (k : PlaceKept t u) : PlaceKept s u :=
  ⟨k.ip.trans h.ip, k.sregs.trans h.sregs⟩

theorem State.writeLoc8_placeKept (s : State) (d : Loc Reg8) (v : Byte) : PlaceKept s (s.writeLoc8 d v) := by
  cases d <;> exact ⟨rfl, rfl⟩

theorem State.writeLoc16_placeKept (s : State) (d : Loc Reg16) (v : Word) : PlaceKept s (s.writeLoc16 d v) := by
  cases d <;> exact ⟨rfl, rfl⟩

theorem State.withFlags_placeKept (s : State) (f : Flags) : PlaceKept s (s.withFlags f) := ⟨rfl, rfl⟩

theorem State.drop16_placeKept (s : State) : PlaceKept s s.drop16 := ⟨rfl, rfl⟩

theorem State.aluWrite_placeKept (s : State) (fn : AluFn) (q : Pair) : PlaceKept s (s.aluWrite fn q) := by
  cases q with
  | b d a c => exact (s.withFlags_placeKept _).trans (State.writeLoc8_placeKept _ _ _)
  | w d a c => exact (s.withFlags_placeKept _).trans (State.writeLoc16_placeKept _ _ _)

theorem State.aluDiscard_placeKept (s : State) (fn : AluFn) (q : Pair) : PlaceKept s (s.aluDiscard fn q) := by
  cases q <;> exact s.withFlags_placeKept _

theorem State.logicFlagsOf_placeKept {n : Nat} (s : State) (r : BitVec n) : PlaceKept s (s.logicFlagsOf r) := ⟨rfl, rfl⟩

theorem State.logicWrite_placeKept (s : State) (fn : LogicFn) (q : Pair) : PlaceKept s (s.logicWrite fn q) := by
  cases q with
  | b d a c => exact (s.logicFlagsOf_placeKept _).trans (State.writeLoc8_placeKept _ _ _)
  | w d a c => exact (s.logicFlagsOf_placeKept _).trans (State.writeLoc16_placeKept _ _ _)

theorem State.logicDiscard_placeKept (s : State) (fn : LogicFn) (q : Pair) : PlaceKept s (s.logicDiscard fn q) := by
  cases q <;> exact s.logicFlagsOf_placeKept _

theorem State.unaryWrite_placeKept (s : State) (fn : UnaryFn) (q : Single) : PlaceKept s (s.unaryWrite fn q) := by
  cases q with
  | b d a => exact (s.withFlags_placeKept _).trans (State.writeLoc8_placeKept _ _ _)
  | w d a => exact (s.withFlags_placeKept _).trans (State.writeLoc16_placeKept _ _ _)

theorem State.inAcc_placeKept (s : State) (w : Width) (port : Word) : PlaceKept s (s.inAcc w port) := by
  cases w <;> exact ⟨rfl, rfl⟩

theorem State.outAcc_placeKept (s : State) (w : Width) (port : Word) : PlaceKept s (s.outAcc w port) := by
  cases w <;> exact ⟨rfl, rfl⟩

theorem State.jumpIf_sregs (s : State) (c : Bool) (d : Byte) : (s.jumpIf c d).sregs = s.sregs := by
  cases c <;> rfl

/-- Everything a meaning can answer, of IP and the segment registers. -/
inductive PlaceAnswer (i : Instr) (s : State) : Result → Prop where
  | next (t : State) (ip : i.writesPc = false → t.ip = s.ip) (segs : ∀ g, g ∉ segmentsWritten i → t.sreg g = s.sreg g) :
      PlaceAnswer i s (.next t)
  | fault (e : Fault) : PlaceAnswer i s (.fault e)
  | refused (e : Refusal) : PlaceAnswer i s (.refused e)

section Answers

variable {i : Instr} {s t : State}

theorem sreg_eq_of_sregs_eq (h : t.sregs = s.sregs) (g : SReg) : t.sreg g = s.sreg g := by
  rw [State.sreg, h, State.sreg]

/-- One segment register set, the others are as before. -/
theorem sreg_eq_of_sregs_set {g k : SReg} {v : Word} (h : t.sregs = s.sregs.set g v) (hk : k ∉ [g]) :
    t.sreg k = s.sreg k := by
  rw [State.sreg, h, SRegs.get_set, if_neg (mt List.mem_singleton.2 hk), State.sreg]

/-- An instruction that leaves both. -/
theorem PlaceAnswer.kept (h : PlaceKept s t) : PlaceAnswer i s (.next t) :=
  .next t (fun _ => h.ip) fun g _ => sreg_eq_of_sregs_eq h.sregs g

/-- A write of one segment register. -/
theorem PlaceAnswer.segment {g : SReg} {v : Word} (hs : segmentsWritten i = [g]) (hip : t.ip = s.ip)
    (h : t.sregs = s.sregs.set g v) : PlaceAnswer i s (.next t) :=
  .next t (fun _ => hip) fun _ hk => sreg_eq_of_sregs_set h (hs ▸ hk)

/-- A transfer within the segment. -/
theorem PlaceAnswer.near (hi : i.writesPc = true) (h : t.sregs = s.sregs) : PlaceAnswer i s (.next t) :=
  .next t (fun hn => absurd (hi.symm.trans hn) Bool.false_ne_true.symm) fun g _ => sreg_eq_of_sregs_eq h g

/-- A transfer to another segment. -/
theorem PlaceAnswer.far {v : Word} (hi : i.writesPc = true) (hs : segmentsWritten i = [.cs])
    (h : t.sregs = s.sregs.set .cs v) : PlaceAnswer i s (.next t) :=
  .next t (fun hn => absurd (hi.symm.trans hn) Bool.false_ne_true.symm) fun _ hk => sreg_eq_of_sregs_set h (hs ▸ hk)

theorem PlaceAnswer.generic (bytes : List Byte) : PlaceAnswer i s (s.genericEffect bytes) := by
  unfold State.genericEffect
  cases s.params.unknownMode with
  | noopReport => exact .kept ⟨rfl, rfl⟩
  | fault => exact .fault _

end Answers

/-- What the meaning of any instruction answers, of IP and the segment registers. -/
theorem exec_placeAnswer (i : Instr) (s : State) : PlaceAnswer i s (exec i s) := by
  cases i with
  | add p f | adc p f | sub p f | sbb p f => exact .kept (s.aluWrite_placeKept _ _)
  | lor p f | land p f | lxor p f => exact .kept (s.logicWrite_placeKept _ _)
  | cmp p f => exact .kept (s.aluDiscard_placeKept _ _)
  | test p f => exact .kept (s.logicDiscard_placeKept _ _)
  | inc p f | dec p f | neg p f | lnot p f => exact .kept (s.unaryWrite_placeKept _ _)
  | movRm p f =>
    cases f with
    | ebGb e g => exact .kept (s.writeLoc8_placeKept _ _)
    | evGv e g => exact .kept (s.writeLoc16_placeKept _ _)
    | gbEb g e | gvEv g e => exact .kept ⟨rfl, rfl⟩
  | movRmImm p f =>
    cases f with
    | ebIb e v => exact .kept (s.writeLoc8_placeKept _ _)
    | evIw e v => exact .kept (s.writeLoc16_placeKept _ _)
  | xchgRm p f =>
    cases f with
    | ebGb e g => exact .kept ((s.writeLoc8_placeKept _ _).trans ⟨rfl, rfl⟩)
    | evGv e g => exact .kept ((s.writeLoc16_placeKept _ _).trans ⟨rfl, rfl⟩)
  | movFromSeg p e g => exact .kept (s.writeLoc16_placeKept _ _)
  | popRm p e => exact .kept (s.drop16_placeKept.trans (State.writeLoc16_placeKept _ _ _))
  | movAccMoffs p w off | movMoffsAcc p w off => cases w <;> exact .kept ⟨rfl, rfl⟩
  | pushRm p e => cases e <;> exact .kept ⟨rfl, rfl⟩
  | cbw p | cwd p | movRbIb p r v | movRwIw p r v | xchgAx p r | nop p | lea p g m | xlat p | pushRw p r | pushSr p g
  | popRw p r | pushf p | popf p | lahf p | sahf p | clc p | stc p | cmc p | cli p | sti p | cld p | std p | hlt p =>
    exact .kept ⟨rfl, rfl⟩
  | inImm p w port | inDx p w => exact .kept (s.inAcc_placeKept _ _)
  | outImm p w port | outDx p w => exact .kept (s.outAcc_placeKept _ _)
  | movToSeg p g e | popSr p g | lds p g m | les p g m => exact .segment rfl rfl rfl
  | jo p d | jno p d | jb p d | jnb p d | jz p d | jnz p d | jbe p d | ja p d | js p d | jns p d | jp p d | jnp p d
  | jl p d | jge p d | jle p d | jg p d | jcxz p d | loop p d | loope p d | loopne p d =>
    exact .near rfl (State.jumpIf_sregs _ _ d)
  | jmpShort p d | jmpNear p d | jmpRm p e | callNear p d | callRm p e | ret p | retImm p v => exact .near rfl rfl
  | jmpFar p off sel | jmpMem p m | callFar p off sel | callMem p m | retf p | retfImm p v | int p n | int3 p
  | iret p => exact .far rfl rfl rfl
  | into p =>
    unfold exec execInto
    cases s.flags.of with
    | false => exact .kept ⟨rfl, rfl⟩
    | true => exact .far rfl rfl rfl
  | daa p | das p | aaa p | aas p | wait p | movsb p | movsw p | cmpsb p | cmpsw p | stosb p | stosw p | lodsb p
  | lodsw p | scasb p | scasw p | aam p | aad p | lock p | shiftRotate p f | esc p k | mul p w md rm | imul p w md rm
  | div p w md rm | idiv p w md rm => exact .refused _
  | segByte p g | repneByte p | repByte p | generic p u => exact .generic _

/-- Among the instructions that are no control transfer, only the ones that no bytes encode, MOV CS and POP CS, list CS
(30_encoding.md R201). -/
theorem cs_notMem_segmentsWritten {i : Instr} (hpc : i.writesPc = false) (hwf : i.wellFormed = true) :
    .cs ∉ segmentsWritten i := by
  have ho := (Bool.and_eq_true_iff.1 hwf).1
  intro hcs
  unfold segmentsWritten at hcs
  split at hcs
  case h_1 p g e =>
    cases List.mem_singleton.1 hcs
    cases ho
  case h_2 p g =>
    cases List.mem_singleton.1 hcs
    cases ho
  case h_3 | h_4 => cases List.mem_singleton.1 hcs
  case h_15 => exact List.not_mem_nil hcs
  all_goals cases hpc

/-- Settles O48: by what each instruction answers (`exec_placeAnswer`). -/
theorem onlyControlTransfersMoveIpAndCs : Obligations.OnlyControlTransfersMoveIpAndCs := by
  unfold Obligations.OnlyControlTransfersMoveIpAndCs
  intro i s t h
  have a := exec_placeAnswer i s
  rw [h] at a
  cases a with
  | next _ ip segs => exact ⟨fun hpc => ⟨ip hpc, fun hwf => segs .cs (cs_notMem_segmentsWritten hpc hwf)⟩, segs⟩

end Sys2Proof.Machine
end

section
/-! O54 (30_encoding.md R141, R143, R144, R151, R152): what the decoder reads an instruction from. A rule per field reader,
the opcode map quadrant by quadrant, then the chain of prefixes. -/

namespace Sys2Proof

/-- The body of the instruction is the opcode `op` and the first bytes of `t`, at most five of them. -/
def ReadsFrom (op : Byte) (t : List Byte) (i : Instr) : Prop := ∃ u, i.body = op :: u ∧ u <+: t ∧ u.length ≤ 5

/-! ### What a field reader takes -/

theorem take8_some {t u : List Byte} {v : Byte} (h : take8 t = some (v, u)) : t = [v] ++ u := by
  cases t with
  | nil => cases h
  | cons b t => cases h; rfl

theorem take16_some {t u : List Byte} {v : Word} (h : take16 t = some (v, u)) : t = leBytes v ++ u := by
  unfold take16 at h
  split at h
  · cases h; simp [leBytes]
  · cases h

@[simp] theorem leBytes_length (v : Word) : (leBytes v).length = 2 := rfl

@[simp] theorem encodeEb_byteReg (g : Oct) (e : Ea Oct) : encodeEb g e.byteReg = encodeModRM g e := by
  cases e <;> simp [encodeEb, Ea.byteReg, Ea.map]

@[simp] theorem encodeEv_wordReg (g : Oct) (e : Ea Oct) : encodeEv g e.wordReg = encodeModRM g e := by
  cases e <;> simp [encodeEv, Ea.wordReg, Ea.map]

section Readers

variable {op : Byte} {t : List Byte} {p : List Pfx}

theorem some_readsFrom {j : Instr} (h : j.body = [op]) : ∀ i ∈ some j, ReadsFrom op t i :=
  some_forall ⟨[], h, List.nil_prefix, by simp⟩

/-- An instruction with an immediate after a ModRM form, or either of them alone. -/
theorem ReadsFrom.of_eq {i : Instr} {u w : List Byte} (hb : i.body = op :: u) (ht : t = u ++ w) (hl : u.length ≤ 5) :
    ReadsFrom op t i :=
  ⟨u, hb, ⟨w, ht.symm⟩, hl⟩

theorem with8_readsFrom {f : Byte → Instr} (h : ∀ v, (f v).body = [op, v]) : ∀ i ∈ with8 t f, ReadsFrom op t i := by
  simp only [with8, Option.mem_map]
  rintro _ ⟨⟨v, u⟩, hv, rfl⟩
  exact .of_eq (h v) (take8_some hv) (by simp)

theorem with16_readsFrom {f : Word → Instr} (h : ∀ v, (f v).body = op :: leBytes v) :
    ∀ i ∈ with16 t f, ReadsFrom op t i := by
  simp only [with16, Option.mem_map]
  rintro _ ⟨⟨v, u⟩, hv, rfl⟩
  exact .of_eq (h v) (take16_some hv) (by simp)

theorem withPtr_readsFrom {f : Word → Word → Instr} (h : ∀ off sel, (f off sel).body = op :: (leBytes off ++ leBytes sel)) :
    ∀ i ∈ withPtr t f, ReadsFrom op t i := by
  simp only [withPtr, Option.mem_def, Option.bind_eq_some_iff, Option.map_eq_some_iff]
  rintro _ ⟨⟨off, u⟩, ho, ⟨sel, w⟩, hs, rfl⟩
  refine .of_eq (h off sel) (w := w) ?_ (by simp)
  have hu : u = leBytes sel ++ w := take16_some hs
  rw [take16_some ho, hu, List.append_assoc]

/-- What a ModRM read takes, and the `reg` field it names. -/
theorem takeModRM_takes {g : Oct} {e : Ea Oct} {u : List Byte} (h : takeModRM t = some (g, e, u)) :
    t = encodeModRM g e ++ u ∧ BeginsWithReg g t := by
  have ht := (takeModRM_some h).2
  exact ⟨ht, ht ▸ encodeModRM_mid3 g e u⟩

theorem withRM_readsFrom {f : Oct → Ea Oct → Instr}
    (h : ∀ g e, BeginsWithReg g t → (f g e).body = op :: encodeModRM g e) : ∀ i ∈ withRM t f, ReadsFrom op t i := by
  simp only [withRM, Option.mem_map]
  rintro _ ⟨⟨g, e, u⟩, hm, rfl⟩
  obtain ⟨ht, hg⟩ := takeModRM_takes hm
  have hl := encodeModRM_length g e
  exact .of_eq (h g e hg) ht (by omega)

theorem withRM8_readsFrom {f : Oct → Ea Oct → Byte → Instr}
    (h : ∀ g e v, BeginsWithReg g t → (f g e v).body = op :: (encodeModRM g e ++ [v])) :
    ∀ i ∈ withRM8 t f, ReadsFrom op t i := by
  simp only [withRM8, Option.mem_def, Option.bind_eq_some_iff, Option.map_eq_some_iff]
  rintro _ ⟨⟨g, e, u⟩, hm, ⟨v, w⟩, hv, rfl⟩
  obtain ⟨ht, hg⟩ := takeModRM_takes hm
  have hu : u = [v] ++ w := take8_some hv
  have hl := encodeModRM_length g e
  refine .of_eq (h g e v hg) (w := w) ?_ (by simp; omega)
  rw [ht, hu, List.append_assoc]

theorem withRM16_readsFrom {f : Oct → Ea Oct → Word → Instr}
    (h : ∀ g e v, BeginsWithReg g t → (f g e v).body = op :: (encodeModRM g e ++ leBytes v)) :
    ∀ i ∈ withRM16 t f, ReadsFrom op t i := by
  simp only [withRM16, Option.mem_def, Option.bind_eq_some_iff, Option.map_eq_some_iff]
  rintro _ ⟨⟨g, e, u⟩, hm, ⟨v, w⟩, hv, rfl⟩
  obtain ⟨ht, hg⟩ := takeModRM_takes hm
  have hu : u = leBytes v ++ w := take16_some hv
  have hl := encodeModRM_length g e
  refine .of_eq (h g e v hg) (w := w) ?_ (by simp; omega)
  rw [ht, hu, List.append_assoc]

/-- An unknown group encoding carries the ModRM byte that the decoder looked at (log entry 12). -/
theorem group_readsFrom (m : Byte) (u : List Byte) : ReadsFrom op (m :: u) (.generic p (.group op m)) :=
  .of_eq rfl (w := u) rfl (by simp)

theorem withMem_readsFrom {f : Oct → MemRef → Instr}
    (h : ∀ g r, BeginsWithReg g t → (f g r).body = op :: encodeM g r) : ∀ i ∈ withMem p op t f, ReadsFrom op t i := by
  intro i hi
  cases t with
  | nil => cases hi
  | cons m u =>
    by_cases hx : top2 m = .q3
    · simp only [withMem, hx, Option.mem_def, Option.some.injEq] at hi
      exact hi ▸ group_readsFrom m u
    · simp only [withMem, Option.mem_def, Option.map_eq_some_iff] at hi
      obtain ⟨⟨g, e, v⟩, he, rfl⟩ := hi
      obtain ⟨r, rfl⟩ := takeModRM_mem hx he
      obtain ⟨ht, hg⟩ := takeModRM_takes he
      have hl := Laws.Encoding.m_length g r
      exact .of_eq (h g r hg) ht (by omega)

theorem onlyReg0_readsFrom {k : Option Instr} (h : BeginsWithReg .o0 t → ∀ i ∈ k, ReadsFrom op t i) :
    ∀ i ∈ onlyReg0 p op t k, ReadsFrom op t i := by
  intro i hi
  unfold onlyReg0 at hi
  split at hi
  · cases hi
  · next m u =>
    split at hi
    · next hm => exact h ⟨m, u, rfl, hm⟩ i hi
    · cases hi; exact group_readsFrom m u

/-- The bytes begin with one `reg` field. -/
theorem BeginsWithReg.unique {g k : Oct} (h : BeginsWithReg g t) (h' : BeginsWithReg k t) : g = k := by
  obtain ⟨m, u, rfl, rfl⟩ := h
  obtain ⟨_, _, e, rfl⟩ := h'
  cases e
  rfl

theorem beginsWithReg_cons {m : Byte} {u : List Byte} {g : Oct} (h : mid3 m = g) : BeginsWithReg g (m :: u) :=
  ⟨m, u, rfl, h⟩

/-- A ModRM form of a group, whose `reg` field is known. -/
theorem withRM_reg_readsFrom {k : Oct} (hk : BeginsWithReg k t) {f : Oct → Ea Oct → Instr}
    (h : ∀ g e, (f g e).body = op :: encodeModRM k e) : ∀ i ∈ withRM t f, ReadsFrom op t i :=
  withRM_readsFrom fun g e hg => hg.unique hk ▸ h g e

theorem withMem_reg_readsFrom {k : Oct} (hk : BeginsWithReg k t) {f : Oct → MemRef → Instr}
    (h : ∀ g r, (f g r).body = op :: encodeM k r) : ∀ i ∈ withMem p op t f, ReadsFrom op t i :=
  withMem_readsFrom fun g r hg => hg.unique hk ▸ h g r

end Readers

/-! ### The opcode map -/

section Opcodes

variable {p : List Pfx} {t : List Byte}

theorem jccLow_body (k : Oct) (p : List Pfx) (d : Byte) : (jccLow k p d).body = [octal .q1 .o6 k, d] := by
  cases k <;> rfl

theorem jccHigh_body (k : Oct) (p : List Pfx) (d : Byte) : (jccHigh k p d).body = [octal .q1 .o7 k, d] := by
  cases k <;> rfl

theorem decode0_readsFrom (y z : Oct) : ∀ i ∈ decode0 p y z t, ReadsFrom (octal .q0 y z) t i := by
  unfold decode0
  cases z with
  | o0 | o1 | o2 | o3 => exact withRM_readsFrom fun _ _ _ => by simp [aluOf_body, AluForm.encode]
  | o4 => exact with8_readsFrom fun _ => aluOf_body ..
  | o5 => exact with16_readsFrom fun _ => aluOf_body ..
  | o6 | o7 => cases y <;> exact some_readsFrom rfl

theorem decode1_readsFrom (y z : Oct) : ∀ i ∈ decode1 p y z t, ReadsFrom (octal .q1 y z) t i := by
  cases y with
  | o0 | o1 | o2 | o3 | o4 | o5 => cases z <;> exact some_readsFrom rfl
  | o6 => exact with8_readsFrom (jccLow_body z p)
  | o7 => exact with8_readsFrom (jccHigh_body z p)

theorem SReg.code_of_ofOct {g : Oct} {s : SReg} (h : SReg.ofOct g = some s) : s.code = g := by
  cases g with
  | o0 | o1 | o2 | o3 => cases h; rfl
  | o4 | o5 | o6 | o7 => cases h

theorem decode8C_readsFrom : ∀ i ∈ decode8C p t, ReadsFrom 0x8C t i := by
  intro i hi
  unfold decode8C at hi
  split at hi
  · cases hi
  · next m u =>
    split at hi
    · next s hs =>
      exact withRM_reg_readsFrom (beginsWithReg_cons (SReg.code_of_ofOct hs).symm)
        (fun _ _ => by simp [Instr.body]) i hi
    · cases hi; exact group_readsFrom m u

theorem decode8E_readsFrom : ∀ i ∈ decode8E p t, ReadsFrom 0x8E t i := by
  intro i hi
  unfold decode8E at hi
  split at hi
  · cases hi
  · next m u =>
    split at hi
    · cases hi; exact group_readsFrom m u
    · next s _ hs =>
      exact withRM_reg_readsFrom (beginsWithReg_cons (SReg.code_of_ofOct hs).symm)
        (fun _ _ => by simp [Instr.body]) i hi
    · cases hi; exact group_readsFrom m u

theorem decode2_readsFrom (y z : Oct) : ∀ i ∈ decode2 p y z t, ReadsFrom (octal .q2 y z) t i := by
  unfold decode2
  cases y with
  | o0 =>
    cases z with
    | o0 | o2 | o3 =>
      exact withRM8_readsFrom fun _ _ _ _ => (aluOf_body ..).trans (by rw [AluForm.encode]; simp; rfl)
    | o1 => exact withRM16_readsFrom fun _ _ _ _ => (aluOf_body ..).trans (by rw [AluForm.encode]; simp; rfl)
    | o4 | o5 | o6 | o7 =>
      exact withRM_readsFrom fun _ _ _ => by simp [Instr.body, TestForm.encode, XchgForm.encode]; rfl
  | o1 =>
    cases z with
    | o0 | o1 | o2 | o3 => exact withRM_readsFrom fun _ _ _ => by simp [Instr.body, MovForm.encode]; rfl
    | o4 => exact decode8C_readsFrom
    | o5 => exact withMem_readsFrom fun _ _ _ => by simp [Instr.body]
    | o6 => exact decode8E_readsFrom
    | o7 => exact onlyReg0_readsFrom fun h0 => withRM_reg_readsFrom h0 fun _ _ => by simp [Instr.body]
  | o2 => cases z <;> exact some_readsFrom rfl
  | o3 =>
    cases z with
    | o2 => exact withPtr_readsFrom fun _ _ => rfl
    | o0 | o1 | o3 | o4 | o5 | o6 | o7 => exact some_readsFrom rfl
  | o4 =>
    cases z with
    | o0 | o1 | o2 | o3 => exact with16_readsFrom fun _ => rfl
    | o4 | o5 | o6 | o7 => exact some_readsFrom rfl
  | o5 =>
    cases z with
    | o0 => exact with8_readsFrom fun _ => rfl
    | o1 => exact with16_readsFrom fun _ => rfl
    | o2 | o3 | o4 | o5 | o6 | o7 => exact some_readsFrom rfl
  | o6 => exact with8_readsFrom fun _ => by simp [Instr.body]
  | o7 => exact with16_readsFrom fun _ => by simp [Instr.body]

/-- A refused member of group 3 is its opcode and its ModRM byte. -/
theorem refusedMember_readsFrom {op m : Byte} {u : List Byte} {i : Instr} {k : Oct} (hm : mid3 m = k)
    (h : i.body = [op, octal (top2 m) k (low3 m)]) : ReadsFrom op (m :: u) i := by
  rw [← hm, octal_fields] at h
  exact .of_eq h (w := u) rfl (by simp)

theorem decodeGroup3_readsFrom {op : Byte} {w : Width} (hw : w.op 0xF6 = op) {test0 : Option Instr}
    {unary : Ea Oct → UnaryForm} (h0 : BeginsWithReg .o0 t → ∀ i ∈ test0, ReadsFrom op t i)
    (hu : ∀ k e, (unary e).encode k = op :: encodeModRM k e) :
    ∀ i ∈ decodeGroup3 p op w t test0 unary, ReadsFrom op t i := by
  intro i hi
  unfold decodeGroup3 at hi
  split at hi
  · cases hi
  · next m u =>
    split at hi
    · next hm => exact h0 (beginsWithReg_cons hm) i hi
    · cases hi; exact group_readsFrom m u
    · next hm => exact withRM_reg_readsFrom (beginsWithReg_cons hm) (fun _ _ => by exact hu _ _) i hi
    · next hm => exact withRM_reg_readsFrom (beginsWithReg_cons hm) (fun _ _ => by exact hu _ _) i hi
    all_goals
      next hm =>
        cases hi
        exact refusedMember_readsFrom hm (by rw [Instr.body, hw])

theorem decodeGroup4_readsFrom : ∀ i ∈ decodeGroup4 p t, ReadsFrom 0xFE t i := by
  intro i hi
  unfold decodeGroup4 at hi
  split at hi
  · cases hi
  · next m u =>
    split at hi
    · next hm =>
      exact withRM_reg_readsFrom (beginsWithReg_cons hm) (fun _ _ => by simp [Instr.body, IncForm.encode]) i hi
    · next hm =>
      exact withRM_reg_readsFrom (beginsWithReg_cons hm) (fun _ _ => by simp [Instr.body, IncForm.encode]) i hi
    · cases hi; exact group_readsFrom m u

theorem decodeGroup5_readsFrom : ∀ i ∈ decodeGroup5 p t, ReadsFrom 0xFF t i := by
  intro i hi
  unfold decodeGroup5 at hi
  split at hi
  · cases hi
  · next m u =>
    split at hi
    case h_4 hm => exact withMem_reg_readsFrom (beginsWithReg_cons hm) (fun _ _ => rfl) i hi
    case h_6 hm => exact withMem_reg_readsFrom (beginsWithReg_cons hm) (fun _ _ => rfl) i hi
    case h_8 => cases hi; exact group_readsFrom m u
    all_goals
      next hm =>
        exact withRM_reg_readsFrom (beginsWithReg_cons hm) (fun _ _ => by simp [Instr.body, IncForm.encode]) i hi

theorem decode3_readsFrom (y z : Oct) : ∀ i ∈ decode3 p y z t, ReadsFrom (octal .q3 y z) t i := by
  unfold decode3
  cases y with
  | o0 =>
    cases z with
    | o0 | o1 | o3 => exact some_readsFrom rfl
    | o2 => exact with16_readsFrom fun _ => rfl
    | o4 | o5 => exact withMem_readsFrom fun _ _ _ => by simp [Instr.body]
    | o6 =>
      refine onlyReg0_readsFrom fun h0 => withRM8_readsFrom fun g _ _ hg => ?_
      rw [hg.unique h0]
      simp [Instr.body, MovImmForm.encode]
    | o7 =>
      refine onlyReg0_readsFrom fun h0 => withRM16_readsFrom fun g _ _ hg => ?_
      rw [hg.unique h0]
      simp [Instr.body, MovImmForm.encode]
  | o1 =>
    cases z with
    | o2 => exact with16_readsFrom fun _ => rfl
    | o5 => exact with8_readsFrom fun _ => rfl
    | o0 | o1 | o3 | o4 | o6 | o7 => exact some_readsFrom rfl
  | o2 => cases z <;> exact some_readsFrom rfl
  | o3 => exact some_readsFrom rfl
  | o4 => cases z <;> exact with8_readsFrom fun _ => rfl
  | o5 =>
    cases z with
    | o0 | o1 => exact with16_readsFrom fun _ => rfl
    | o2 => exact withPtr_readsFrom fun _ _ => rfl
    | o3 => exact with8_readsFrom fun _ => rfl
    | o4 | o5 | o6 | o7 => exact some_readsFrom rfl
  | o6 =>
    cases z with
    | o6 =>
      refine decodeGroup3_readsFrom (op := 0xF6) rfl (fun h0 => withRM8_readsFrom fun g _ _ hg => ?_) fun _ _ => ?_
      · rw [hg.unique h0]
        simp [Instr.body, TestForm.encode]
      · simp [UnaryForm.encode]
    | o7 =>
      refine decodeGroup3_readsFrom (op := 0xF7) rfl (fun h0 => withRM16_readsFrom fun g _ _ hg => ?_) fun _ _ => ?_
      · rw [hg.unique h0]
        simp [Instr.body, TestForm.encode]
      · simp [UnaryForm.encode]
    | o0 | o1 | o2 | o3 | o4 | o5 => exact some_readsFrom rfl
  | o7 =>
    cases z with
    | o6 => exact decodeGroup4_readsFrom
    | o7 => exact decodeGroup5_readsFrom
    | o0 | o1 | o2 | o3 | o4 | o5 => exact some_readsFrom rfl

theorem decodeOp_readsFrom {op : Byte} : ∀ i ∈ decodeOp p op t, ReadsFrom op t i := by
  rw [← octal_fields op, decodeOp_octal]
  cases top2 op with
  | q0 => exact decode0_readsFrom _ _
  | q1 => exact decode1_readsFrom _ _
  | q2 => exact decode2_readsFrom _ _
  | q3 => exact decode3_readsFrom _ _

end Opcodes

/-! ### The whole queue -/

/-- A decoded instruction is its prefixes, its opcode and what the opcode map read (30_encoding.md R142, R151). -/
theorem decode_readsFrom {q : List Byte} {i : Instr} (h : decode q = some i) :
    ∃ op t, q = i.pfx.map Pfx.byte ++ op :: t ∧ i.pfx.length ≤ Config.maxPrefixes ∧ ReadsFrom op t i := by
  obtain ⟨hlen, hq, -⟩ := takePrefixes_spec Config.maxPrefixes q
  unfold decode at h
  split at h
  · cases h
  · next op t hrest =>
    have hp := (decodeOp_fromOpcode i h).pfx
    rw [hrest, ← hp] at hq
    exact ⟨op, t, hq, hp ▸ hlen, decodeOp_readsFrom i h⟩

/-- The bytes are the encoding, without the ModRM byte that an unknown group encoding only looks at
(30_encoding.md R181). -/
theorem Instr.bytes_prefix_encode (i : Instr) : i.bytes <+: i.encode := by
  unfold Instr.bytes
  split
  · next p op m => exact ⟨[m], List.append_assoc _ _ _⟩
  · exact List.prefix_rfl

/-- The bytes are at least the prefixes and the opcode. -/
theorem Instr.nprefix_lt_len {i : Instr} (hb : i.body ≠ []) : i.nprefix + 1 ≤ i.len := by
  unfold Instr.len Instr.bytes
  split
  · next p op m => simp [Instr.nprefix, Instr.pfx]
  · have := List.length_pos_iff.2 hb
    rw [Instr.encode, List.length_append, List.length_map, Instr.nprefix]
    omega

/-- Settles O54: what decode gives is well-formed (`decode_wellFormed`), and its encoding is the prefixes and bytes that
decode read (`decode_readsFrom`). -/
theorem decodedInstructionIsTheFirstBytesOfTheQueue : Obligations.DecodedInstructionIsTheFirstBytesOfTheQueue := by
  unfold Obligations.DecodedInstructionIsTheFirstBytesOfTheQueue
  intro q i h
  obtain ⟨op, t, hq, hp, u, hb, ⟨w, ht⟩, hu⟩ := decode_readsFrom h
  have henc : i.encode <+: q := ⟨w, by rw [hq, Instr.encode, hb, ← ht, List.append_assoc, List.cons_append]⟩
  have hlen : i.encode.length ≤ i.nprefix + 6 := by
    rw [Instr.encode, hb, List.length_append, List.length_map, List.length_cons, Instr.nprefix]
    omega
  exact ⟨decode_wellFormed h, henc, i.bytes_prefix_encode.trans henc,
    Instr.nprefix_lt_len (by rw [hb]; exact List.cons_ne_nil _ _), i.bytes_prefix_encode.length_le.trans hlen, hp⟩

end Sys2Proof
end

section
/-! O55 (30_encoding.md R130, R131, R133, R140, R142): the template table. Every row is the predicate of an opcode, of a
`reg` field if it fixes one, and of mod = 11 or not; in the table's order the rows tile the opcodes and `reg` fields. -/

namespace Sys2Proof

/-! ### A row by its fields -/

/-- The mask over the second byte: the `reg` field if `e` names one, the `mod` field if `mod3`. -/
def secondMask (e : Option Oct) (mod3 : Bool) : Nat := (if e.isSome then 0x38 else 0) + if mod3 then 0xC0 else 0

/-- The second byte's match value: that `reg` field, and mod = 11. -/
def secondValue (e : Option Oct) (mod3 : Bool) : Nat := 8 * (e.map Oct.toNat).getD 0 + if mod3 then 0xC0 else 0

/-- The row of an opcode, of a `reg` field if `e` names one, of mod = 11 if `mod3`, and of a memory operand if `memOnly`
(30_encoding.md R131, R132). -/
def Template.ofFields (op : Byte) (e : Option Oct) (mod3 memOnly : Bool) (n : Mnemonic) (c : EncodingClass) : Template :=
  { mask := 0xFF * 256 + secondMask e mod3
    value := op.toNat * 256 + secondValue e mod3
    memOnly := memOnly
    name := n
    cls := c }

/-- Does the row's mask fix the `mod` field? -/
def Template.fixesMod (r : Template) : Bool := r.mask &&& 0xC0 == 0xC0

/-- Bitwise and, byte by byte. -/
theorem land_bytes {a b c d : Nat} (hb : b < 256) (hd : d < 256) :
    (a * 256 + b) &&& (c * 256 + d) = (a &&& c) * 256 + (b &&& d) := by
  have hlo := Nat.and_mod_two_pow (a := a * 256 + b) (b := c * 256 + d) (n := 8)
  have hhi := Nat.and_div_two_pow (a := a * 256 + b) (b := c * 256 + d) (n := 8)
  rw [show (a * 256 + b) % 2 ^ 8 = b by omega, show (c * 256 + d) % 2 ^ 8 = d by omega] at hlo
  rw [show (a * 256 + b) / 2 ^ 8 = a by omega, show (c * 256 + d) / 2 ^ 8 = c by omega] at hhi
  omega

theorem land_reg : ∀ m : Byte, m.toNat &&& 0x38 = 8 * (mid3 m).toNat := by decide

theorem land_mod : ∀ m : Byte, m.toNat &&& 0xC0 = 64 * (top2 m).toNat := by decide

theorem land_mod_reg : ∀ m : Byte, m.toNat &&& 0xF8 = 64 * (top2 m).toNat + 8 * (mid3 m).toNat := by decide

theorem Quad.toNat_eq_three {x : Quad} : x.toNat = 3 ↔ x = .q3 := by
  cases x <;> decide

theorem secondMask_lt (e : Option Oct) (mod3 : Bool) : secondMask e mod3 < 256 := by
  cases e <;> cases mod3 <;> simp [secondMask]

theorem secondValue_lt (e : Option Oct) (mod3 : Bool) : secondValue e mod3 < 256 := by
  have h : (e.map Oct.toNat).getD 0 < 8 := by
    cases e with
    | none => decide
    | some g => exact Machine.Oct.toNat_lt g
  unfold secondValue
  split <;> omega

/-- The second byte matches when its `reg` field is the one named and, if fixed, mod = 11. -/
theorem land_secondMask {m : Byte} {e : Option Oct} {mod3 : Bool} :
    m.toNat &&& secondMask e mod3 = secondValue e mod3 ↔
      (∀ g, e = some g → mid3 m = g) ∧ (mod3 = true → top2 m = .q3) := by
  have hg (g : Oct) : mid3 m = g ↔ (mid3 m).toNat = g.toNat := Machine.Oct.toNat_injective.eq_iff.symm
  cases e with
  | none =>
    cases mod3 with
    | false => simp [secondMask, secondValue]
    | true => simp [secondMask, secondValue, land_mod, ← Quad.toNat_eq_three]; omega
  | some g =>
    have hlt := Machine.Oct.toNat_lt (mid3 m)
    have hlt' := Machine.Oct.toNat_lt g
    cases mod3 with
    | false => simp [secondMask, secondValue, land_reg, hg]
    | true => simp [secondMask, secondValue, land_mod_reg, ← Quad.toNat_eq_three, hg]; omega

/-- What a row accepts, by the fields of the two bytes. -/
theorem Template.accepts_ofFields {op o m : Byte} {e : Option Oct} {mod3 memOnly : Bool} {n : Mnemonic}
    {c : EncodingClass} : (Template.ofFields o e mod3 memOnly n c).accepts op m = true ↔
      op = o ∧ (∀ g, e = some g → mid3 m = g) ∧ (mod3 = true → top2 m = .q3) ∧ (memOnly = true → top2 m ≠ .q3) := by
  have hop : op.toNat &&& 0xFF = op.toNat := (Nat.and_two_pow_sub_one_eq_mod _ 8).trans (Nat.mod_eq_of_lt op.isLt)
  have hand : (op.toNat * 256 + m.toNat) &&& (0xFF * 256 + secondMask e mod3) =
      op.toNat * 256 + (m.toNat &&& secondMask e mod3) := by
    rw [land_bytes m.isLt (secondMask_lt e mod3), hop]
  have hlt : m.toNat &&& secondMask e mod3 < 256 := Nat.and_lt_two_pow (n := 8) _ (secondMask_lt e mod3)
  have hlt' := secondValue_lt e mod3
  have hmod : m.toNat / 64 = 3 ↔ top2 m = .q3 := by rw [← top2_toNat, Quad.toNat_eq_three]
  have hbytes : op.toNat * 256 + (m.toNat &&& secondMask e mod3) = o.toNat * 256 + secondValue e mod3 ↔
      op = o ∧ m.toNat &&& secondMask e mod3 = secondValue e mod3 := by
    rw [← BitVec.toNat_inj]
    omega
  simp only [Template.accepts, Template.ofFields, hand, Bool.and_eq_true, beq_iff_eq, hbytes, land_secondMask,
    Bool.or_eq_true, Bool.not_eq_true', bne_iff_ne, ne_eq, hmod, and_assoc]
  cases memOnly <;> simp

/-! ### The rows of the table -/

/-- The blocks of the table. -/
def templateBlocks : List (List Template) :=
  [templateRows0, templateRows1, templateRows2, templateRows3, templateRows4, templateRows5, templateRows6, templateRows7,
    templateRows8, templateRows9, templateRows10]

theorem templates_eq_flatten : templates = templateBlocks.flatten := by
  simp [templates, templateBlocks]

/-- The table's rows are rows by their fields. -/
theorem templates_ofFields : ∀ r ∈ templates,
    r = .ofFields r.opcode r.ext r.fixesMod r.memOnly r.name r.cls := by
  rw [templates_eq_flatten]
  decide +kernel

/-- Is it a row of the table? The match value is compared first, which tells most rows apart. -/
def Template.isRow (r : Template) : Bool := templateBlocks.any fun b => b.any fun r' => r'.value == r.value && r' == r

theorem Template.mem_of_isRow {r : Template} (h : r.isRow = true) : r ∈ templates := by
  simp only [isRow, List.any_eq_true, Bool.and_eq_true, beq_iff_eq] at h
  obtain ⟨b, hb, r', hr, -, rfl⟩ := h
  exact templates_eq_flatten ▸ List.mem_flatten_of_mem hb hr

section Fields

variable {op : Byte} {e : Option Oct} {mod3 memOnly : Bool} {n : Mnemonic} {c : EncodingClass}

@[simp] theorem Template.opcode_ofFields : (Template.ofFields op e mod3 memOnly n c).opcode = op := by
  have hlt := secondValue_lt e mod3
  rw [Template.opcode, Template.ofFields, show (op.toNat * 256 + secondValue e mod3) / 256 = op.toNat by omega]
  simp

@[simp] theorem Template.ext_ofFields : (Template.ofFields op e mod3 memOnly n c).ext = e := by
  have hbyte : BitVec.ofNat 8 (op.toNat * 256 + secondValue e mod3) = BitVec.ofNat 8 (secondValue e mod3) :=
    BitVec.eq_of_toNat_eq (by simp)
  have hmask : (0xFF * 256 + secondMask e mod3) &&& 0x38 = secondMask e mod3 &&& 0x38 := by
    simpa using land_bytes (a := 0xFF) (c := 0) (d := 0x38) (secondMask_lt e mod3) (by decide)
  rw [Template.ext, Template.ofFields, hbyte, hmask]
  cases e with
  | none => cases mod3 <;> rfl
  | some g => cases mod3 <;> cases g <;> rfl

end Fields

/-! ### The row of an instruction -/

/-- A row of the table accepts the opcode of `i` and the byte `m`, and has the mnemonic, the class and the kind of `i`. -/
def Instr.HasRow (i : Instr) (m : Byte) : Prop :=
  ∃ r ∈ templates, r.accepts i.opcode m = true ∧ r.name = i.mnemonic ∧ r.cls = i.encodingClass ∧ r.kind = i.kind

/-- A byte after the opcode, if the instruction has one, is `m`. -/
def Instr.SecondIs (i : Instr) (m : Byte) : Prop := ∀ b, i.body[1]? = some b → b = m

theorem Instr.SecondIs.eq {i : Instr} {op b m : Byte} {u : List Byte} (hm : i.SecondIs m)
    (hb : i.body = op :: b :: u) : b = m :=
  hm b (by rw [hb]; rfl)

theorem Instr.opcode_of_body {i : Instr} {op : Byte} {u : List Byte} (hb : i.body = op :: u) : i.opcode = op := by
  rw [Instr.opcode, hb, List.headD_cons]

/-- The opcodes whose instructions have an `ext` (30_encoding.md R140). -/
def hasExt (op : Byte) : Bool := isGroupOpcode op && op != 0x8D && op != 0xC4 && op != 0xC5

theorem Instr.ext_of_body {i : Instr} {op m : Byte} {u : List Byte} (hb : i.body = op :: m :: u)
    (h : hasExt op = true) : i.ext = some (mid3 m) := by
  rw [Instr.ext, i.opcode_of_body hb, hb]
  exact if_pos h

theorem BeginsWithReg.encodeEb (g : Oct) (e : Ea Reg8) : BeginsWithReg g (encodeEb g e) := by
  simpa using beginsWithReg_encodeEb g e []

theorem BeginsWithReg.encodeM (g : Oct) (r : MemRef) : BeginsWithReg g (encodeM g r) := by
  simpa using beginsWithReg_encodeM g r []

theorem BeginsWithReg.encodeEv (g : Oct) (e : Ea Reg16) : BeginsWithReg g (encodeEv g e) := by
  simpa using beginsWithReg_encodeEv g e []

namespace Instr.HasRow

variable {i : Instr} {m op : Byte} {g : Oct} {u : List Byte}

/-- The row of these fields, whose kind is that of `i` if the two have the same `ext` or are unknown. -/
theorem of_fields {e : Option Oct} {mod3 memOnly : Bool}
    (h : (Template.ofFields i.opcode e mod3 memOnly i.mnemonic i.encodingClass).isRow = true)
    (he : i.ext = e ∨ i.encodingClass = .unknown) (hg : ∀ g, e = some g → mid3 m = g)
    (hmod : mod3 = true → top2 m = .q3) (hmem : memOnly = true → top2 m ≠ .q3) : i.HasRow m := by
  refine ⟨_, Template.mem_of_isRow h, Template.accepts_ofFields.2 ⟨rfl, hg, hmod, hmem⟩, rfl, rfl, ?_⟩
  rw [Template.kind, Instr.kind, Template.opcode_ofFields, Template.ext_ofFields]
  rcases he with rfl | hc
  · rfl
  · rw [hc]
    rfl

/-- An opcode that one row claims whole. -/
theorem plain (c : EncodingClass := .admitted) (hi : i.ext = none := by rfl) (hc : i.encodingClass = c := by rfl)
    (h : (Template.ofFields i.opcode none false false i.mnemonic c).isRow = true := by
      dsimp only [opcode, body, aluOf, AluForm.encode, TestForm.encode, IncForm.encode, MovForm.encode, XchgForm.encode,
        List.headD_cons, mnemonic]
      decide +kernel) : i.HasRow m :=
  of_fields (hc ▸ h) (.inl hi) (by simp) (by simp) (by simp)

/-- A member of a group. -/
theorem group (hm : i.SecondIs m) (hb : i.body = op :: u) (hg : BeginsWithReg g u) (c : EncodingClass := .admitted)
    (hop : hasExt op = true := by decide) (hc : i.encodingClass = c := by rfl)
    (h : (Template.ofFields op (some g) false false i.mnemonic c).isRow = true := by
      dsimp only [aluOf, mnemonic]
      decide +kernel) : i.HasRow m := by
  obtain ⟨b, t, rfl, rfl⟩ := hg
  obtain rfl := hm.eq hb
  refine of_fields (i.opcode_of_body hb ▸ hc ▸ h) (.inl (i.ext_of_body hb hop)) ?_ (by simp) (by simp)
  exact fun _ => Option.some.inj

/-- The second byte of a memory-only form. -/
theorem second_of_encodeM {r : MemRef} (hm : i.SecondIs m) (hb : i.body = op :: encodeM g r) :
    mid3 m = g ∧ top2 m ≠ .q3 := by
  obtain ⟨x, z, t, ht, hx⟩ := encodeModRM_head g (.mem r)
  obtain rfl := hm.eq (hb.trans (congrArg _ ht))
  simpa using hx

/-- A memory-only opcode. -/
theorem memory {r : MemRef} (hm : i.SecondIs m) (hb : i.body = op :: encodeM g r) (hi : i.ext = none := by rfl)
    (hc : i.encodingClass = .admitted := by rfl)
    (h : (Template.ofFields op none false true i.mnemonic .admitted).isRow = true := by
      dsimp only [mnemonic]
      decide +kernel) : i.HasRow m :=
  of_fields (i.opcode_of_body hb ▸ hc ▸ h) (.inl hi) (by simp) (by simp) fun _ => (second_of_encodeM hm hb).2

/-- A memory-only member of a group. -/
theorem memoryGroup {r : MemRef} (hm : i.SecondIs m) (hb : i.body = op :: encodeM g r)
    (hop : hasExt op = true := by decide) (hc : i.encodingClass = .admitted := by rfl)
    (h : (Template.ofFields op (some g) false true i.mnemonic .admitted).isRow = true := by
      dsimp only [mnemonic]
      decide +kernel) : i.HasRow m := by
  obtain ⟨hg, hx⟩ := second_of_encodeM hm hb
  obtain ⟨b, t, ht, -⟩ := BeginsWithReg.encodeM g r
  have hb' := hb.trans (congrArg _ ht)
  obtain rfl := hm.eq hb'
  refine of_fields (i.opcode_of_body hb ▸ hc ▸ h) (.inl (hg ▸ i.ext_of_body hb' hop)) ?_ (by simp) fun _ => hx
  exact fun _ hk => hg.trans (Option.some.inj hk)

variable {p : List Pfx}

/-- The ten forms of the eight two-operand operations (41_arith_logic.md R271). -/
theorem aluOf_hasRow (k : Oct) {f : AluForm} (hm : (aluOf k p f).SecondIs m) : (aluOf k p f).HasRow m := by
  cases f with
  | ebGb | evGv | gbEb | gvEv | alIb | axIw => cases k <;> exact .plain
  | ebIb e v => cases k <;> exact .group hm rfl (beginsWithReg_encodeEb ..)
  | evIw e v => cases k <;> exact .group hm rfl (beginsWithReg_encodeEv ..)
  | ebIbAlias e v => cases k <;> exact .group hm rfl (beginsWithReg_encodeEb ..)
  | evIbs e v => cases k <;> exact .group hm rfl (beginsWithReg_encodeEv ..)

/-- The unknown group encodings of a set of `reg` fields. -/
theorem unknownReg {P : Nat → Prop} (hP : P (mid3 m).toNat)
    (h : ∀ g : Oct, P g.toNat → (Template.ofFields op (some g) false false .unknown .unknown).isRow = true) :
    (Instr.generic p (.group op m)).HasRow m :=
  of_fields (h _ hP) (.inr rfl) (by simp) (by simp) (by simp)

/-- The unknown encodings of a memory-only opcode. -/
theorem unknownMod3 (hx : (top2 m).toNat = 3)
    (h : (Template.ofFields op none true false .unknown .unknown).isRow = true) :
    (Instr.generic p (.group op m)).HasRow m :=
  of_fields h (.inr rfl) (by simp) (fun _ => Quad.toNat_eq_three.1 hx) (by simp)

/-- The unknown encodings of a memory-only member of a group. -/
theorem unknownRegMod3 (hx : (top2 m).toNat = 3)
    (h : (Template.ofFields op (some (mid3 m)) true false .unknown .unknown).isRow = true) :
    (Instr.generic p (.group op m)).HasRow m :=
  of_fields h (.inr rfl) (by simp) (fun _ => Quad.toNat_eq_three.1 hx) (by simp)

theorem unknownGroup (h : isUnknownGroup op m = true) : (Instr.generic p (.group op m)).HasRow m := by
  simp only [isUnknownGroup, ← mid3_toNat, ← top2_toNat] at h
  split_ifs at h with h8C h8E h1 h3 hFE hFF hM <;>
    simp only [Bool.or_eq_true, Bool.and_eq_true, beq_iff_eq, bne_iff_ne, decide_eq_true_eq] at *
  · subst h8C
    exact unknownReg (P := fun k => 4 ≤ k) h fun g => by cases g <;> decide +kernel
  · subst h8E
    exact unknownReg (P := fun k => k = 1 ∨ 4 ≤ k) h fun g => by cases g <;> decide +kernel
  · rcases h1 with (rfl | rfl) | rfl <;>
      exact unknownReg (P := fun k => k ≠ 0) h fun g => by cases g <;> decide +kernel
  · rcases h3 with rfl | rfl <;> exact unknownReg (P := fun k => k = 1) h fun g => by cases g <;> decide +kernel
  · subst hFE
    exact unknownReg (P := fun k => 2 ≤ k) h fun g => by cases g <;> decide +kernel
  · subst hFF
    rcases h with h7 | ⟨h35, hx⟩
    · exact unknownReg (P := fun k => k = 7) h7 fun g => by cases g <;> decide +kernel
    · refine unknownRegMod3 hx ?_
      generalize mid3 m = g at h35
      revert h35
      cases g <;> decide +kernel
  · rcases hM with (rfl | rfl) | rfl <;> exact unknownMod3 h (by decide +kernel)

theorem unknownByte {b : Byte} (h : isUnknownByte b = true) : (Instr.generic p (.byte b)).HasRow m := by
  simp only [isUnknownByte, Bool.or_eq_true, beq_iff_eq] at h
  rcases h with ((((((rfl | h) | rfl) | rfl) | rfl) | rfl) | rfl) | rfl
  case inl.inl.inl.inl.inl.inl.inr =>
    rcases octal_of_and_F0 b h with hb | hb <;> rw [hb] <;> cases low3 b <;> exact .plain .unknown
  all_goals exact .plain .unknown

end Instr.HasRow

/-- Every instruction that has an encoding has a row. -/
theorem Instr.hasRow {i : Instr} {m : Byte} (h : i.operandsWellFormed = true) (hm : i.SecondIs m) : i.HasRow m := by
  cases i with
  | add => exact HasRow.aluOf_hasRow .o0 hm
  | lor => exact HasRow.aluOf_hasRow .o1 hm
  | adc => exact HasRow.aluOf_hasRow .o2 hm
  | sbb => exact HasRow.aluOf_hasRow .o3 hm
  | land => exact HasRow.aluOf_hasRow .o4 hm
  | sub => exact HasRow.aluOf_hasRow .o5 hm
  | lxor => exact HasRow.aluOf_hasRow .o6 hm
  | cmp => exact HasRow.aluOf_hasRow .o7 hm
  | test p f =>
    cases f with
    | ebGb | evGv | alIb | axIw => exact .plain
    | ebIb e v => exact .group hm rfl (beginsWithReg_encodeEb ..)
    | evIw e v => exact .group hm rfl (beginsWithReg_encodeEv ..)
  | inc p f =>
    cases f with
    | rw r => cases r <;> exact .plain
    | eb e => exact .group hm rfl (.encodeEb ..)
    | ev e => exact .group hm rfl (.encodeEv ..)
  | dec p f =>
    cases f with
    | rw r => cases r <;> exact .plain
    | eb e => exact .group hm rfl (.encodeEb ..)
    | ev e => exact .group hm rfl (.encodeEv ..)
  | neg p f | lnot p f =>
    cases f with
    | eb e => exact .group hm rfl (.encodeEb ..)
    | ev e => exact .group hm rfl (.encodeEv ..)
  | movRm p f => cases f <;> exact .plain
  | xchgRm p f => cases f <;> exact .plain
  | shiftRotate p f => cases f <;> exact .plain .refused
  | movFromSeg p e s => cases s <;> exact .group hm rfl (.encodeEv ..)
  | movToSeg p s e =>
    cases s with
    | cs => cases h
    | es | ss | ds => exact .group hm rfl (.encodeEv ..)
  | movRmImm p f =>
    cases f with
    | ebIb e v => exact .group hm rfl (beginsWithReg_encodeEb ..)
    | evIw e v => exact .group hm rfl (beginsWithReg_encodeEv ..)
  | xchgAx p r =>
    cases r with
    | ax => cases h
    | cx | dx | bx | sp | bp | si | di => exact .plain
  | movRbIb p r | movRwIw p r | pushRw p r | popRw p r => cases r <;> exact .plain
  | pushSr p s => cases s <;> exact .plain
  | popSr p s =>
    cases s with
    | cs => cases h
    | es | ss | ds => exact .plain
  | pushRm p e | popRm p e | jmpRm p e | callRm p e => exact .group hm rfl (.encodeEv ..)
  | lea | lds | les => exact .memory hm rfl
  | callMem p r | jmpMem p r => exact .memoryGroup hm rfl
  | movAccMoffs p w | movMoffsAcc p w | inImm p w | inDx p w | outImm p w | outDx p w => cases w <;> exact .plain
  | mul p w | imul p w | div p w | idiv p w =>
    cases w <;> exact .group hm rfl (beginsWithReg_cons (mid3_octal ..)) .refused
  | esc p k => cases k <;> exact .plain .refused
  | daa | das | aaa | aas | wait | movsb | movsw | cmpsb | cmpsw | stosb | stosw | lodsb | lodsw | scasb | scasw
  | aam | aad | lock => exact .plain .refused
  | segByte p s => cases s <;> exact .plain .pfx
  | repneByte | repByte => exact .plain .pfx
  | generic p x =>
    cases x with
    | byte b => exact HasRow.unknownByte h
    | group op b =>
      obtain rfl := hm.eq rfl
      exact HasRow.unknownGroup h
  | _ => exact .plain

/-! ### The table in its order -/

section Rows

variable {r r' : Template} {op m : Byte}

/-- What a row accepts, by the fields of the row. -/
theorem Template.accepts_iff (hr : r ∈ templates) : r.accepts op m = true ↔
    op = r.opcode ∧ (∀ g, r.ext = some g → mid3 m = g) ∧ (r.fixesMod = true → top2 m = .q3) ∧
      (r.memOnly = true → top2 m ≠ .q3) := by
  rw [templates_ofFields r hr, Template.accepts_ofFields]
  simp [← templates_ofFields r hr]

/-- The place of an opcode and a second byte in the order of the rows (30_encoding.md R133). -/
def place (op m : Byte) : Nat := op.toNat * 8 + (mid3 m).toNat

theorem place_lt (op m : Byte) : place op m < 2048 := by
  have := op.isLt
  have := Machine.Oct.toNat_lt (mid3 m)
  unfold place
  omega

/-- The last place that a row claims; its first is its rank. -/
def Template.last (r : Template) : Nat := r.rank + if r.ext.isSome then 0 else 7

theorem Template.rank_le_last : r.rank ≤ r.last := Nat.le_add_right _ _

/-- A row claims the places from its rank to its last. -/
theorem Template.place_mem_iff : r.rank ≤ place op m ∧ place op m ≤ r.last ↔
    op = r.opcode ∧ ∀ g, r.ext = some g → mid3 m = g := by
  have := Machine.Oct.toNat_lt (mid3 m)
  rw [Template.last, Template.rank, place, ← BitVec.toNat_inj]
  cases r.ext with
  | none => simp; omega
  | some g =>
    have := Machine.Oct.toNat_lt g
    have hg : mid3 m = g ↔ (mid3 m).toNat = g.toNat := Machine.Oct.toNat_injective.eq_iff.symm
    simp [hg]
    omega

/-- The row `r` comes before `r'`: its places are all before those of `r'`, or they are the same places, of a memory
operand in `r` and of mod = 11, unknown, in `r'` (30_encoding.md R202). -/
def Template.before (r r' : Template) : Bool :=
  decide (r.last < r'.rank) ||
    (r.rank == r'.rank && r.last == r'.last && r.memOnly && !r'.memOnly && r'.fixesMod && r'.cls == .unknown)

theorem Template.before_iff : r.before r' = true ↔ r.last < r'.rank ∨
    r.rank = r'.rank ∧ r.last = r'.last ∧ r.memOnly = true ∧ r'.memOnly = false ∧ r'.fixesMod = true ∧
      r'.cls = .unknown := by
  simp [Template.before, and_assoc]

theorem Template.before_trans {a b c : Template} (hab : a.before b = true) (hbc : b.before c = true) :
    a.before c = true := by
  have ha := a.rank_le_last
  have hb := b.rank_le_last
  have hc := c.rank_le_last
  rw [before_iff] at *
  rcases hab with hab | ⟨hr, hl, -, hmem, -⟩ <;> rcases hbc with hbc | ⟨hr', hl', hmem', -⟩
  · exact .inl (by omega)
  · exact .inl (by omega)
  · exact .inl (by omega)
  · exact absurd hmem' (by rw [hmem]; decide)

theorem templates_pairwise_before : templates.Pairwise fun r r' => r.before r' = true := by
  have : IsTrans Template fun r r' => r.before r' = true := ⟨fun _ _ _ => Template.before_trans⟩
  rw [← List.isChain_iff_pairwise, templates_eq_flatten]
  decide +kernel

/-- Rows in order accept no two bytes in common. -/
theorem Template.before.disjoint (h : r.before r' = true) (hr : r ∈ templates) (hr' : r' ∈ templates) :
    ¬(r.accepts op m = true ∧ r'.accepts op m = true) := by
  rintro ⟨ha, ha'⟩
  obtain ⟨hop, hext, -, hmem⟩ := (accepts_iff hr).1 ha
  obtain ⟨hop', hext', hmod', -⟩ := (accepts_iff hr').1 ha'
  have hp := place_mem_iff.2 ⟨hop, hext⟩
  have hp' := place_mem_iff.2 ⟨hop', hext'⟩
  rcases before_iff.1 h with hlt | ⟨-, -, hm, -, hf, -⟩
  · omega
  · exact hmem hm (hmod' hf)

theorem Template.before.rank_le (h : r.before r' = true) : r.rank ≤ r'.rank := by
  have := r.rank_le_last
  rcases before_iff.1 h with hlt | ⟨heq, -⟩ <;> omega

theorem Template.kind_eq_generic (h : r.cls = .unknown) : r.kind = .generic := by
  rw [Template.kind, h]

/-- A row's kind, if not GENERIC, names its opcode and `reg` field. -/
theorem Template.kind_eq_row (h : r.kind ≠ .generic) : r.kind = .row r.opcode r.ext := by
  cases hc : r.cls with
  | admitted | refused => simp [kind, hc]
  | unknown | pfx => exact absurd (by simp [kind, hc]) h

/-- Rows in order share no kind but GENERIC. -/
theorem Template.before.kind_generic (h : r.before r' = true) (hk : r.kind = r'.kind) : r.kind = .generic := by
  rcases before_iff.1 h with hlt | ⟨-, -, -, -, -, hc⟩
  · by_contra hne
    have hrow := (kind_eq_row hne).symm.trans (hk.trans (kind_eq_row (hk ▸ hne)))
    injection hrow with hop hext
    have : r.rank = r'.rank := by rw [rank, rank, hop, hext]
    have := r.rank_le_last
    omega
  · exact hk.trans (kind_eq_generic hc)

end Rows

/-! ### Coverage -/

/-- The rows' places, in order, are all the places from `k` on, each claimed by one row. -/
def tilesFrom (k : Nat) : List Template → Bool
  | [] => k == 2048
  | r :: l => r.rank == k && tilesFrom (r.last + 1) l

theorem exists_row_of_tilesFrom {n : Nat} (hn : n < 2048) : ∀ {l : List Template} {k : Nat}, tilesFrom k l = true →
    k ≤ n → ∃ r ∈ l, r.rank ≤ n ∧ n ≤ r.last
  | [], k, h, hk => by
    have : k = 2048 := beq_iff_eq.1 h
    omega
  | r :: l, k, h, hk => by
    obtain ⟨hr, hl⟩ := Bool.and_eq_true_iff.1 h
    have hr : r.rank = k := beq_iff_eq.1 hr
    by_cases hlast : n ≤ r.last
    · exact ⟨r, List.mem_cons_self, by omega, hlast⟩
    · obtain ⟨r', hr', hn'⟩ := exists_row_of_tilesFrom hn hl (by omega)
      exact ⟨r', List.mem_cons_of_mem _ hr', hn'⟩

theorem tilesFrom_withoutMod3 : tilesFrom 0 (templates.filter fun r => !r.fixesMod) = true := by
  rw [templates_eq_flatten]
  decide +kernel

theorem tilesFrom_withoutMemOnly : tilesFrom 0 (templates.filter fun r => !r.memOnly) = true := by
  rw [templates_eq_flatten]
  decide +kernel

/-- Every opcode and second byte have a row: mod = 11 one that is not memory-only, another mod one that does not fix it. -/
theorem exists_row (op m : Byte) : ∃ r ∈ templates, r.accepts op m = true := by
  by_cases hx : top2 m = .q3
  · obtain ⟨r, hr, hp⟩ := exists_row_of_tilesFrom (place_lt op m) tilesFrom_withoutMemOnly (Nat.zero_le _)
    obtain ⟨hr, hmem⟩ := List.mem_filter.1 hr
    obtain ⟨hop, hg⟩ := Template.place_mem_iff.1 hp
    exact ⟨r, hr, (Template.accepts_iff hr).2 ⟨hop, hg, fun _ => hx, by simp_all⟩⟩
  · obtain ⟨r, hr, hp⟩ := exists_row_of_tilesFrom (place_lt op m) tilesFrom_withoutMod3 (Nat.zero_le _)
    obtain ⟨hr, hmod⟩ := List.mem_filter.1 hr
    obtain ⟨hop, hg⟩ := Template.place_mem_iff.1 hp
    exact ⟨r, hr, (Template.accepts_iff hr).2 ⟨hop, hg, by simp_all, fun _ => hx⟩⟩

/-! ### The first row that accepts -/

/-- At most one row accepts two bytes. -/
theorem row_unique {r r' : Template} {op m : Byte} (hr : r ∈ templates) (hr' : r' ∈ templates)
    (ha : r.accepts op m = true) (ha' : r'.accepts op m = true) : r = r' := by
  have hpair : templates.Pairwise fun x y => x.accepts op m = true → y.accepts op m = true → x = y :=
    templates_pairwise_before.imp_of_mem fun hx hy h ax ay => absurd ⟨ax, ay⟩ (Template.before.disjoint h hx hy)
  have : Std.Symm fun x y : Template => x.accepts op m = true → y.accepts op m = true → x = y :=
    ⟨fun _ _ h ay ax => (h ax ay).symm⟩
  exact hpair.forall_of_forall (fun _ _ _ _ => rfl) hr hr' ha ha'

/-- A row that accepts two bytes is the first: no other accepts them. -/
theorem firstTemplate_eq_some {r : Template} {op m : Byte} (hr : r ∈ templates) (ha : r.accepts op m = true) :
    firstTemplate op m = some r := by
  have hsome : (firstTemplate op m).isSome = true := List.find?_isSome.2 ⟨r, hr, ha⟩
  obtain ⟨r', hf⟩ := Option.isSome_iff_exists.1 hsome
  have hr' := List.mem_of_find?_eq_some hf
  have ha' : r'.accepts op m = true := List.find?_some (p := fun r : Template => r.accepts op m) hf
  exact hf.trans (congrArg some (row_unique hr' hr ha' ha))

/-- Settles O55: the rows are in order (`templates_pairwise_before`) and tile the opcodes and second bytes (`exists_row`),
and every instruction that decode gives has a row (`Instr.hasRow`). -/
theorem noTwoTemplatesAcceptTheSameBytes : Obligations.NoTwoTemplatesAcceptTheSameBytes := by
  unfold Obligations.NoTwoTemplatesAcceptTheSameBytes
  refine ⟨templates_pairwise_before.imp_of_mem fun hr hr' h =>
    ⟨fun _ _ => Template.before.disjoint h hr hr', Template.before.rank_le h, Template.before.kind_generic h⟩,
    exists_row, fun q i h => ?_⟩
  obtain ⟨op, t, hq, -, u, hb, ⟨w, rfl⟩, -⟩ := decode_readsFrom h
  have hwf := (Bool.and_eq_true_iff.1 (decode_wellFormed h)).1
  have hat (k : Nat) : q[i.nprefix + k]? = (op :: (u ++ w))[k]? := by
    rw [hq, Instr.nprefix, ← List.length_map Pfx.byte, List.getElem?_append_right (by omega), Nat.add_sub_cancel_left]
  refine ⟨op, hat 0, fun m hm => ?_⟩
  have hsecond : i.SecondIs m := by
    intro b hb1
    rw [hb, List.getElem?_cons_succ] at hb1
    rw [hat 1, List.getElem?_cons_succ, List.getElem?_append_left (List.getElem?_eq_some_iff.1 hb1).1, hb1] at hm
    simpa using hm
  obtain ⟨r, hr, ha, hrow⟩ := Instr.hasRow hwf hsecond
  exact ⟨r, firstTemplate_eq_some hr (i.opcode_of_body hb ▸ ha), hrow⟩

end Sys2Proof
end

section
/-! O11 to O16 (41_arith_logic.md R270 to R286): the arithmetic and logic instructions. Each ALU function of 40_alu.md is
put in numbers once, for both widths; each shared operation of R270 then carries it to the operands of any form. -/

namespace Sys2Proof.Machine

open Sys2Proof.Claims

/-! ### Flag formulas in numbers -/

theorem zeroFlag_eq {n : Nat} (r : BitVec n) : zeroFlag r = decide (r.toNat = 0) := by
  rw [Bool.eq_iff_iff, decide_eq_true_iff, zeroFlag, beq_iff_eq, ← BitVec.toNat_inj]
  rfl

theorem parityFlag_eq_evenOnes {n : Nat} (r : BitVec n) : parityFlag r = evenOnes r := by
  rw [parityFlag, popcount8, List.countP_eq_length_filter]
  rfl

section Formulas

variable {n : Nat} {g : Flags} {a b r : BitVec n} {c : Bool}

/-- SF, ZF and PF given by their formulas (40_alu.md R235, R236). -/
theorem resultFlags_of_formulas (hs : g.sf = signFlag r) (hz : g.zf = zeroFlag r) (hp : g.pf = parityFlag r) :
    ResultFlags g r where
  sf := hs.trans (msb_eq r)
  zf := hz.trans (zeroFlag_eq r)
  pf := hp.trans (parityFlag_eq_evenOnes r)

/-- AF and OF given by their formulas on a sum (40_alu.md R232, R237). -/
theorem sumCarries_of_formulas (h : n = 8 ∨ n = 16) (hr : r.toNat = (a.toNat + b.toNat + c.toNat) % 2 ^ n)
    (haf : g.af = auxCarry a b r) (hof : g.of = addOverflow a b r) : SumCarries g a b c where
  af := haf.trans (auxCarry_sum a b r c h hr)
  of := hof.trans (addOverflow_sum a b r c h hr)

/-- AF and OF given by their formulas on a difference (40_alu.md R232, R237). -/
theorem diffBorrows_of_formulas (h : n = 8 ∨ n = 16)
    (hr : (r.toNat : Int) = ((a.toNat : Int) - b.toNat - c.toNat) % 2 ^ n)
    (haf : g.af = auxCarry a b r) (hof : g.of = subOverflow a b r) : DiffBorrows g a b c where
  af := haf.trans (auxCarry_diff a b r c h hr)
  of := hof.trans (subOverflow_diff a b r c h hr)

theorem addFlags_sumFlags (f : Flags) (h : n = 8 ∨ n = 16) (hr : r.toNat = (a.toNat + b.toNat + c.toNat) % 2 ^ n) :
    SumFlags (addFlags f a b c r) a b c r where
  cf := addCarry_eq a b c
  carries := sumCarries_of_formulas h hr rfl rfl
  result := resultFlags_of_formulas rfl rfl rfl

theorem subFlags_diffFlags (f : Flags) (h : n = 8 ∨ n = 16)
    (hr : (r.toNat : Int) = ((a.toNat : Int) - b.toNat - c.toNat) % 2 ^ n) :
    DiffFlags (subFlags f a b c r) a b c r where
  cf := rfl
  borrows := diffBorrows_of_formulas h hr rfl rfl
  result := resultFlags_of_formulas rfl rfl rfl

end Formulas

/-! ### The ALU functions in numbers -/

/-- The answer `x` of an ALU function is the sum a + b + c with its six flags; the others are those of `f`. -/
structure IsSum {n : Nat} (f : Flags) (a b : BitVec n) (c : Bool) (x : BitVec n × Flags) : Prop where
  value : x.1.toNat = (a.toNat + b.toNat + c.toNat) % 2 ^ n
  flags : SumFlags x.2 a b c x.1
  kept : ∀ m, m ∉ arithFlags → x.2.get m = f.get m

/-- The answer `x` of an ALU function is the difference a - b - c with its six flags; the others are those of `f`. -/
structure IsDiff {n : Nat} (f : Flags) (a b : BitVec n) (c : Bool) (x : BitVec n × Flags) : Prop where
  value : (x.1.toNat : Int) = ((a.toNat : Int) - b.toNat - c.toNat) % 2 ^ n
  flags : DiffFlags x.2 a b c x.1
  kept : ∀ m, m ∉ arithFlags → x.2.get m = f.get m

/-- The answer `x` of an ALU function is the negation of `a` with its six flags; the others are those of `f`. -/
structure IsNeg {n : Nat} (f : Flags) (a : BitVec n) (x : BitVec n × Flags) : Prop where
  value : (x.1.toNat : Int) = (-(a.toNat : Int)) % 2 ^ n
  cf : x.2.cf = decide (a.toNat ≠ 0)
  of : x.2.of = decide (a.toNat = 2 ^ (n - 1))
  af : x.2.af = decide (a.toNat % 16 ≠ 0)
  result : ResultFlags x.2 x.1
  kept : ∀ m, m ∉ arithFlags → x.2.get m = f.get m

section Functions

variable {n : Nat} (f : Flags) (a b : BitVec n)

theorem isSum_addFlags {c : Bool} {r : BitVec n} (h : n = 8 ∨ n = 16)
    (hr : r.toNat = (a.toNat + b.toNat + c.toNat) % 2 ^ n) : IsSum f a b c (r, addFlags f a b c r) :=
  ⟨hr, addFlags_sumFlags f h hr, Flags.get_eq_off_arithFlags rfl rfl rfl⟩

theorem isDiff_subFlags {c : Bool} {r : BitVec n} (h : n = 8 ∨ n = 16)
    (hr : (r.toNat : Int) = ((a.toNat : Int) - b.toNat - c.toNat) % 2 ^ n) : IsDiff f a b c (r, subFlags f a b c r) :=
  ⟨hr, subFlags_diffFlags f h hr, Flags.get_eq_off_arithFlags rfl rfl rfl⟩

/-- A difference without a borrow in, as `diff_toNat` counts one. -/
theorem sub_toNat_borrow_false (h : n = 8 ∨ n = 16) :
    ((a - b).toNat : Int) = ((a.toNat : Int) - b.toNat - false.toNat) % 2 ^ n := by
  simpa using diff_toNat a b false h

theorem aluAdd_isSum (h : n = 8 ∨ n = 16) : IsSum f a b false (aluAdd n f a b) :=
  isSum_addFlags f a b h (BitVec.toNat_add a b)

theorem aluAdc_isSum (h : n = 8 ∨ n = 16) : IsSum f a b f.cf (aluAdc n f a b) :=
  isSum_addFlags f a b h (sum_toNat a b f.cf h)

theorem aluSub_isDiff (h : n = 8 ∨ n = 16) : IsDiff f a b false (aluSub n f a b) :=
  isDiff_subFlags f a b h (sub_toNat_borrow_false a b h)

theorem aluSbb_isDiff (h : n = 8 ∨ n = 16) : IsDiff f a b f.cf (aluSbb n f a b) :=
  isDiff_subFlags f a b h (diff_toNat a b f.cf h)

theorem aluInc_sumCarries (h : n = 8 ∨ n = 16) : SumCarries (aluInc f a).2 a 1 false :=
  sumCarries_of_formulas h (BitVec.toNat_add a 1) rfl rfl

theorem aluInc_resultFlags : ResultFlags (aluInc f a).2 (aluInc f a).1 :=
  resultFlags_of_formulas rfl rfl rfl

theorem aluInc_kept : ∀ m, m ∉ incFlags → (aluInc f a).2.get m = f.get m :=
  Flags.get_eq_off_incFlags rfl rfl rfl rfl

theorem aluDec_diffBorrows (h : n = 8 ∨ n = 16) : DiffBorrows (aluDec f a).2 a 1 false :=
  diffBorrows_of_formulas h (sub_toNat_borrow_false a 1 h) rfl rfl

theorem aluDec_resultFlags : ResultFlags (aluDec f a).2 (aluDec f a).1 :=
  resultFlags_of_formulas rfl rfl rfl

theorem aluDec_kept : ∀ m, m ∉ incFlags → (aluDec f a).2.get m = f.get m :=
  Flags.get_eq_off_incFlags rfl rfl rfl rfl

/-- 0 - a leaves the signed range just at the most negative number (40_alu.md R250). -/
theorem outsideSigned_neg (h : n = 8 ∨ n = 16) : outsideSigned n (-a.toInt) = decide (a.toNat = 2 ^ (n - 1)) := by
  have ha := a.isLt
  rw [outsideSigned, decide_eq_decide, BitVec.toInt_eq_toNat_cond]
  rcases h with rfl | rfl <;> split <;> omega

/-- NEG is the difference 0 - a, whose borrows and overflow are conditions on `a` alone (40_alu.md R250). -/
theorem aluNeg_isNeg (h : n = 8 ∨ n = 16) : IsNeg f a (aluNeg f a) := by
  obtain ⟨value, ⟨cf, ⟨af, of⟩, result⟩, kept⟩ := aluSub_isDiff f 0 a h
  refine ⟨value.trans (by simp), cf.trans ?_, of.trans ?_, af.trans ?_, result, kept⟩
  · simp [Nat.pos_iff_ne_zero]
  · rw [← outsideSigned_neg a h]
    simp
  · simp [Nat.pos_iff_ne_zero]

end Functions

/-! ### What a write of flags and one operand leaves -/

section Writes

variable {s u : State} {l : List FlagName} {dr : Bool}

theorem State.withFlags_flagsOnly {f : Flags} (h : ∀ n, n ∉ l → f.get n = s.flags.get n) :
    FlagsOnly s (s.withFlags f) l false :=
  ⟨rfl, s.withFlags_frame f l h⟩

/-- The draw counter is in the footprint of a logical operation (40_alu.md R238, log entry 5). -/
theorem State.logicFlagsOf_flagsOnly {n : Nat} (s : State) (r : BitVec n) :
    FlagsOnly s (s.logicFlagsOf r) arithFlags true :=
  ⟨rfl, ((s.withFlags_frame _ arithFlags (s.logicFlagsOf_flagsKept r)).trans (State.withDraws_frame _ _)).mono
    ⟨fun _ h => h, fun _ h => h, fun _ h => by simpa [Footprint.both] using h, fun _ h => h, fun h => h, fun h => h,
      fun h => h, fun h => h⟩⟩

/-- A byte operand written after flags alone have changed. -/
theorem State.writeLoc8_put8 (h : FlagsOnly s u l dr) (hwf : u.mem.wf = true) (d : Loc Reg8) (v : Byte) :
    Put8 s (u.writeLoc8 d v) d v l dr := by
  obtain ⟨hw, hlog, hframe⟩ := u.writeLoc8_spec d v hwf
  have hreg (j : Reg8) : u.reg8 j = s.reg8 j := by
    rw [State.reg8, h.frame.regs _ List.not_mem_nil]
    rfl
  have hmem (a : Addr) : u.read8 a = s.read8 a := h.frame.bytes a List.not_mem_nil
  refine ⟨?_, by rw [hlog, h.log], (h.frame.trans hframe).mono ?_⟩
  · cases d with
    | reg r => exact ⟨hw.1, fun j hj => (hw.2 j hj).trans (hreg j)⟩
    | mem a => rwa [Wrote8, ← hmem]
  · constructor <;> simp [Footprint.both]

/-- A word operand written after flags alone have changed. -/
theorem State.writeLoc16_put16 (h : FlagsOnly s u l dr) (hwf : u.mem.wf = true) (d : Loc Reg16) (v : Word) :
    Put16 s (u.writeLoc16 d v) d v l dr := by
  obtain ⟨hw, hlog, hframe⟩ := u.writeLoc16_spec d v hwf
  have hmem (a : Addr) : u.read8 a = s.read8 a := h.frame.bytes a List.not_mem_nil
  refine ⟨?_, by rw [hlog, h.log], (h.frame.trans hframe).mono ?_⟩
  · cases d with
    | reg r => exact hw
    | mem a => rwa [Wrote16, ← hmem, ← hmem]
  · constructor <;> simp [Footprint.both]

/-- Flags, then a byte operand: what the shared operations of R270 do. -/
theorem State.withFlags_writeLoc8 {f : Flags} (hwf : s.mem.wf = true) (h : ∀ n, n ∉ l → f.get n = s.flags.get n)
    (d : Loc Reg8) (v : Byte) :
    ((s.withFlags f).writeLoc8 d v).flags = f ∧ Put8 s ((s.withFlags f).writeLoc8 d v) d v l false :=
  ⟨State.writeLoc8_flags _ d v, State.writeLoc8_put8 (State.withFlags_flagsOnly h) hwf d v⟩

/-- Flags, then a word operand. -/
theorem State.withFlags_writeLoc16 {f : Flags} (hwf : s.mem.wf = true) (h : ∀ n, n ∉ l → f.get n = s.flags.get n)
    (d : Loc Reg16) (v : Word) :
    ((s.withFlags f).writeLoc16 d v).flags = f ∧ Put16 s ((s.withFlags f).writeLoc16 d v) d v l false :=
  ⟨State.writeLoc16_flags _ d v, State.writeLoc16_put16 (State.withFlags_flagsOnly h) hwf d v⟩

end Writes

/-! ### Two operands: ADD, ADC, SUB, SBB, CMP -/

section Binary

variable {s : State} {c : Bool} {fn : AluFn}

theorem State.aluWrite_sumWritten (hwf : s.mem.wf = true)
    (h : ∀ {n} (a b : BitVec n), n = 8 ∨ n = 16 → IsSum s.flags a b c (fn n s.flags a b)) (q : Pair) :
    SumWritten q c s (s.aluWrite fn q) := by
  cases q with
  | b d x y =>
    obtain ⟨value, flags, kept⟩ := h x y (.inl rfl)
    obtain ⟨hf, hput⟩ := State.withFlags_writeLoc8 hwf kept d _
    exact ⟨_, value, hf.symm ▸ flags, hput⟩
  | w d x y =>
    obtain ⟨value, flags, kept⟩ := h x y (.inr rfl)
    obtain ⟨hf, hput⟩ := State.withFlags_writeLoc16 hwf kept d _
    exact ⟨_, value, hf.symm ▸ flags, hput⟩

theorem State.aluWrite_diffWritten (hwf : s.mem.wf = true)
    (h : ∀ {n} (a b : BitVec n), n = 8 ∨ n = 16 → IsDiff s.flags a b c (fn n s.flags a b)) (q : Pair) :
    DiffWritten q c s (s.aluWrite fn q) := by
  cases q with
  | b d x y =>
    obtain ⟨value, flags, kept⟩ := h x y (.inl rfl)
    obtain ⟨hf, hput⟩ := State.withFlags_writeLoc8 hwf kept d _
    exact ⟨_, value, hf.symm ▸ flags, hput⟩
  | w d x y =>
    obtain ⟨value, flags, kept⟩ := h x y (.inr rfl)
    obtain ⟨hf, hput⟩ := State.withFlags_writeLoc16 hwf kept d _
    exact ⟨_, value, hf.symm ▸ flags, hput⟩

theorem State.aluDiscard_diffCompared (s : State) (q : Pair) : DiffCompared q s (s.aluDiscard aluSub q) := by
  cases q with
  | b d x y =>
    obtain ⟨value, flags, kept⟩ := aluSub_isDiff s.flags x y (.inl rfl)
    exact ⟨State.withFlags_flagsOnly kept, _, value.trans (by simp), flags⟩
  | w d x y =>
    obtain ⟨value, flags, kept⟩ := aluSub_isDiff s.flags x y (.inr rfl)
    exact ⟨State.withFlags_flagsOnly kept, _, value.trans (by simp), flags⟩

end Binary

/-- The sign extension of a byte is its signed value (30_encoding.md R167). -/
theorem sext16_toInt (i : Byte) : (sext16 i).toInt = i.toInt := BitVec.toInt_signExtend_of_le (by decide)

/-- What holds of each form with the pair that the model reads for it holds of the forms of R271: the word whose number is
the signed byte of 0x83 is its sign extension (30_encoding.md R167). -/
theorem aluForms_of_aluPair {s : State} {p : List Pfx} {P : AluForm → Pair → Prop} (h : ∀ f, P f (s.aluPair p f)) :
    AluForms s p P where
  ebGb e g := h (.ebGb e g)
  evGv e g := h (.evGv e g)
  gbEb g e := h (.gbEb g e)
  gvEv g e := h (.gvEv g e)
  alIb i := h (.alIb i)
  axIw i := h (.axIw i)
  ebIb e i := h (.ebIb e i)
  ebIbAlias e i := h (.ebIbAlias e i)
  evIw e i := h (.evIw e i)
  evIbs e i x hx := by
    obtain rfl : x = sext16 i := BitVec.eq_of_toInt_eq (hx.trans (sext16_toInt i).symm)
    exact h (.evIbs e i)

/-- Settles O11: `aluAdd` and `aluAdc` are sums (`IsSum`), written to the destination of each form. -/
theorem addAndAdcWriteSumAndSixFlags : Obligations.AddAndAdcWriteSumAndSixFlags := by
  unfold Obligations.AddAndAdcWriteSumAndSixFlags
  exact fun p s hwf => aluForms_of_aluPair fun f =>
    ⟨⟨_, rfl, State.aluWrite_sumWritten hwf (aluAdd_isSum s.flags) _⟩,
      ⟨_, rfl, State.aluWrite_sumWritten hwf (aluAdc_isSum s.flags) _⟩⟩

/-- Settles O12: `aluSub` and `aluSbb` are differences (`IsDiff`), which CMP writes nowhere. -/
theorem subSbbAndCmpGiveDifferenceAndSixFlags : Obligations.SubSbbAndCmpGiveDifferenceAndSixFlags := by
  unfold Obligations.SubSbbAndCmpGiveDifferenceAndSixFlags
  exact fun p s hwf => aluForms_of_aluPair fun f =>
    ⟨⟨_, rfl, State.aluWrite_diffWritten hwf (aluSub_isDiff s.flags) _⟩,
      ⟨_, rfl, State.aluWrite_diffWritten hwf (aluSbb_isDiff s.flags) _⟩, ⟨_, rfl, s.aluDiscard_diffCompared _⟩⟩

/-! ### Bitwise: OR, AND, XOR, TEST -/

section Bitwise

variable {s : State}

theorem State.logicFlagsOf_logicFlags {n : Nat} (s : State) (r : BitVec n) : LogicFlags s (s.logicFlagsOf r) r :=
  ⟨rfl, rfl, rfl, rfl, resultFlags_of_formulas rfl rfl rfl⟩

/-- The flags of a logical operation are of the flags register and the draw counter alone. -/
theorem logicFlags_congr {n : Nat} {t u : State} {r : BitVec n} (hf : u.flags = t.flags) (hd : u.draws = t.draws)
    (h : LogicFlags s t r) : LogicFlags s u r := by
  obtain ⟨cf, of, af, draws, result⟩ := h
  exact ⟨hf ▸ cf, hf ▸ of, hf ▸ af, hd.trans draws, hf ▸ result⟩

theorem State.writeLoc8_draws (s : State) (d : Loc Reg8) (v : Byte) : (s.writeLoc8 d v).draws = s.draws := by
  cases d <;> rfl

theorem State.writeLoc16_draws (s : State) (d : Loc Reg16) (v : Word) : (s.writeLoc16 d v).draws = s.draws := by
  cases d <;> rfl

theorem State.logicWrite_logicWritten {fn : LogicFn} {g : Bool → Bool → Bool} (hwf : s.mem.wf = true)
    (h : ∀ {n} (a b : BitVec n), BitByBit g a b (fn n a b)) (q : Pair) : LogicWritten g q s (s.logicWrite fn q) := by
  cases q with
  | b d x y =>
    exact ⟨_, h x y, logicFlags_congr (State.writeLoc8_flags _ d _) (State.writeLoc8_draws _ d _)
      (s.logicFlagsOf_logicFlags _), State.writeLoc8_put8 (s.logicFlagsOf_flagsOnly _) hwf d _⟩
  | w d x y =>
    exact ⟨_, h x y, logicFlags_congr (State.writeLoc16_flags _ d _) (State.writeLoc16_draws _ d _)
      (s.logicFlagsOf_logicFlags _), State.writeLoc16_put16 (s.logicFlagsOf_flagsOnly _) hwf d _⟩

theorem logicOr_bitByBit {n : Nat} (a b : BitVec n) : BitByBit (· || ·) a b (logicOr n a b) :=
  fun _ _ => BitVec.getLsbD_or

theorem logicAnd_bitByBit {n : Nat} (a b : BitVec n) : BitByBit (· && ·) a b (logicAnd n a b) :=
  fun _ _ => BitVec.getLsbD_and

theorem logicXor_bitByBit {n : Nat} (a b : BitVec n) : BitByBit (· != ·) a b (logicXor n a b) :=
  fun _ _ => BitVec.getLsbD_xor

theorem State.logicDiscard_andTested (s : State) (q : Pair) : AndTested q s (s.logicDiscard logicAnd q) := by
  cases q with
  | b d x y => exact ⟨s.logicFlagsOf_flagsOnly _, _, logicAnd_bitByBit x y, s.logicFlagsOf_logicFlags _⟩
  | w d x y => exact ⟨s.logicFlagsOf_flagsOnly _, _, logicAnd_bitByBit x y, s.logicFlagsOf_logicFlags _⟩

end Bitwise

/-- The forms of TEST with the pair that the model reads for each (41_arith_logic.md R280). -/
theorem testForms_of_testPair {s : State} {p : List Pfx} {P : TestForm → Pair → Prop}
    (h : ∀ f, P f (s.testPair p f)) : TestForms s p P where
  ebGb e g := h (.ebGb e g)
  evGv e g := h (.evGv e g)
  alIb i := h (.alIb i)
  axIw i := h (.axIw i)
  ebIb e i := h (.ebIb e i)
  evIw e i := h (.evIw e i)

/-- Settles O13: each logical function is bit by bit, and `State.logicFlagsOf` gives the flags of R238. -/
theorem logicalInstructionsCombineBitsAndClearCarry : Obligations.LogicalInstructionsCombineBitsAndClearCarry := by
  unfold Obligations.LogicalInstructionsCombineBitsAndClearCarry
  intro p s hwf
  refine ⟨aluForms_of_aluPair fun f => ⟨⟨_, rfl, ?_⟩, ⟨_, rfl, ?_⟩, ⟨_, rfl, ?_⟩⟩,
    testForms_of_testPair fun f => ⟨_, rfl, s.logicDiscard_andTested _⟩⟩
  · exact State.logicWrite_logicWritten hwf logicOr_bitByBit _
  · exact State.logicWrite_logicWritten hwf logicAnd_bitByBit _
  · exact State.logicWrite_logicWritten hwf logicXor_bitByBit _

/-! ### One operand: INC, DEC, NEG, NOT -/

section Unary

variable {s : State}

theorem State.unaryWrite_incremented (hwf : s.mem.wf = true) (q : Single) :
    Incremented q s (s.unaryWrite (fun _ f a => aluInc f a) q) := by
  cases q with
  | b d x =>
    obtain ⟨hf, hput⟩ := State.withFlags_writeLoc8 hwf (aluInc_kept s.flags x) d (x + 1)
    exact ⟨_, BitVec.toNat_add x 1, hf.symm ▸ aluInc_sumCarries s.flags x (.inl rfl),
      hf.symm ▸ aluInc_resultFlags s.flags x, hput⟩
  | w d x =>
    obtain ⟨hf, hput⟩ := State.withFlags_writeLoc16 hwf (aluInc_kept s.flags x) d (x + 1)
    exact ⟨_, BitVec.toNat_add x 1, hf.symm ▸ aluInc_sumCarries s.flags x (.inr rfl),
      hf.symm ▸ aluInc_resultFlags s.flags x, hput⟩

theorem State.unaryWrite_decremented (hwf : s.mem.wf = true) (q : Single) :
    Decremented q s (s.unaryWrite (fun _ f a => aluDec f a) q) := by
  cases q with
  | b d x =>
    obtain ⟨hf, hput⟩ := State.withFlags_writeLoc8 hwf (aluDec_kept s.flags x) d (x - 1)
    exact ⟨_, (sub_toNat_borrow_false x 1 (.inl rfl)).trans (by simp),
      hf.symm ▸ aluDec_diffBorrows s.flags x (.inl rfl), hf.symm ▸ aluDec_resultFlags s.flags x, hput⟩
  | w d x =>
    obtain ⟨hf, hput⟩ := State.withFlags_writeLoc16 hwf (aluDec_kept s.flags x) d (x - 1)
    exact ⟨_, (sub_toNat_borrow_false x 1 (.inr rfl)).trans (by simp),
      hf.symm ▸ aluDec_diffBorrows s.flags x (.inr rfl), hf.symm ▸ aluDec_resultFlags s.flags x, hput⟩

theorem State.unaryWrite_negated (hwf : s.mem.wf = true) (q : Single) :
    Negated q s (s.unaryWrite (fun _ f a => aluNeg f a) q) := by
  cases q with
  | b d x =>
    obtain ⟨value, cf, of, af, result, kept⟩ := aluNeg_isNeg s.flags x (.inl rfl)
    obtain ⟨hf, hput⟩ := State.withFlags_writeLoc8 hwf kept d _
    exact ⟨_, value, hf.symm ▸ cf, hf.symm ▸ of, hf.symm ▸ af, hf.symm ▸ result, hput⟩
  | w d x =>
    obtain ⟨value, cf, of, af, result, kept⟩ := aluNeg_isNeg s.flags x (.inr rfl)
    obtain ⟨hf, hput⟩ := State.withFlags_writeLoc16 hwf kept d _
    exact ⟨_, value, hf.symm ▸ cf, hf.symm ▸ of, hf.symm ▸ af, hf.symm ▸ result, hput⟩

/-- The flags written are those before, so none is in the footprint (41_arith_logic.md R284). -/
theorem State.unaryWrite_complemented (hwf : s.mem.wf = true) (q : Single) :
    Complemented q s (s.unaryWrite (fun _ f a => (~~~a, f)) q) := by
  cases q with
  | b d x => exact ⟨_, BitVec.toNat_not, (State.withFlags_writeLoc8 hwf (fun _ _ => rfl) d _).2⟩
  | w d x => exact ⟨_, BitVec.toNat_not, (State.withFlags_writeLoc16 hwf (fun _ _ => rfl) d _).2⟩

end Unary

/-- The forms of INC and DEC with the operand that the model reads for each (41_arith_logic.md R281, R282). -/
theorem incForms_of_incSingle {s : State} {p : List Pfx} {P : IncForm → Single → Prop}
    (h : ∀ f, P f (s.incSingle p f)) : IncForms s p P :=
  ⟨fun r => h (.rw r), fun e => h (.eb e), fun e => h (.ev e)⟩

/-- The forms of NEG and NOT with the operand that the model reads for each (41_arith_logic.md R283, R284). -/
theorem unaryForms_of_unarySingle {s : State} {p : List Pfx} {P : UnaryForm → Single → Prop}
    (h : ∀ f, P f (s.unarySingle p f)) : UnaryForms s p P :=
  ⟨fun e => h (.eb e), fun e => h (.ev e)⟩

/-- Settles O14: `aluInc` and `aluDec` in numbers, CF outside what they write (`aluInc_kept`, `aluDec_kept`). -/
theorem incAndDecLeaveCarry : Obligations.IncAndDecLeaveCarry := by
  unfold Obligations.IncAndDecLeaveCarry
  exact fun p s hwf => incForms_of_incSingle fun f =>
    ⟨⟨_, rfl, State.unaryWrite_incremented hwf _⟩, ⟨_, rfl, State.unaryWrite_decremented hwf _⟩⟩

/-- Settles O15: NEG is the difference 0 - a (`aluNeg_isNeg`), NOT the complement with the flags as they were. -/
theorem negAndNotWriteNegationAndComplement : Obligations.NegAndNotWriteNegationAndComplement := by
  unfold Obligations.NegAndNotWriteNegationAndComplement
  exact fun p s hwf => unaryForms_of_unarySingle fun f =>
    ⟨⟨_, rfl, State.unaryWrite_negated hwf _⟩, ⟨_, rfl, State.unaryWrite_complemented hwf _⟩⟩

/-! ### Sign extension: CBW, CWD -/

theorem State.setReg16_storesNothing (s : State) (i : Reg16) (v : Word) :
    StoresNothing s (s.setReg16 i v) { regs := [i] } :=
  ⟨rfl, rfl, s.setReg16_frame i v⟩

/-- Settles O16: the sign extension of AL, and the sign bit of AX as a bound (`msb_eq`). -/
theorem cbwAndCwdExtendTheSign : Obligations.CbwAndCwdExtendTheSign := by
  unfold Obligations.CbwAndCwdExtendTheSign
  intro p s
  refine ⟨⟨rfl, _, rfl, ?_, s.setReg16_storesNothing .ax _⟩, ⟨rfl, _, rfl, ?_, s.setReg16_storesNothing .dx _⟩⟩
  · rw [State.setReg16_reg16, if_pos rfl, sext16_toInt]
  · rw [State.setReg16_reg16, if_pos rfl, msb_eq, apply_ite BitVec.toNat]
    simp

end Sys2Proof.Machine
end

section
/-! O17 to O26 (42_data_transfer.md R320 to R352): the data-transfer, stack, flag-transfer and port instructions. Each
operation of the model is told once as what it leaves (`Put8`, `Put16`, `StoresNothing`, `Pushed`); an instruction is one
of them or two in a row. -/

namespace Sys2Proof.Claims

open Sys2Proof.Machine

theorem FlagsOnly.refl (s : State) : FlagsOnly s s [] false := ⟨rfl, Frame.refl s⟩

/-- Two changes in a row, neither of which stores. -/
theorem StoresNothing.trans {s t u : State} {w w' : Footprint} (h : StoresNothing s t w) (k : StoresNothing t u w') :
    StoresNothing s u (w.both w') where
  log := k.log.trans h.log
  bytes := by rw [Footprint.both, h.bytes, k.bytes, List.append_nil]
  frame := h.frame.trans k.frame

end Sys2Proof.Claims

namespace Sys2Proof.Machine

open Sys2Proof.Claims

/-! ### What one write leaves -/

theorem State.setReg8_same (s : State) (r : Reg8) (v : Byte) : (s.setReg8 r v).reg8 r = v := by
  rw [State.setReg8_reg8, if_pos rfl]

theorem State.setReg16_same (s : State) (r : Reg16) (v : Word) : (s.setReg16 r v).reg16 r = v := by
  rw [State.setReg16_reg16, if_pos rfl]

theorem State.setSreg_same (s : State) (g : SReg) (v : Word) : (s.setSreg g v).sreg g = v := by
  rw [State.setSreg_sreg, if_pos rfl]

/-- A move to a byte operand (42_data_transfer.md R320: no flag). -/
theorem State.writeLoc8_moved {s : State} (hwf : s.mem.wf = true) (d : Loc Reg8) (v : Byte) :
    Put8 s (s.writeLoc8 d v) d v [] false :=
  State.writeLoc8_put8 (FlagsOnly.refl s) hwf d v

/-- A move to a word operand. -/
theorem State.writeLoc16_moved {s : State} (hwf : s.mem.wf = true) (d : Loc Reg16) (v : Word) :
    Put16 s (s.writeLoc16 d v) d v [] false :=
  State.writeLoc16_put16 (FlagsOnly.refl s) hwf d v

/-- A byte register takes its value whatever the form of memory. -/
theorem State.setReg8_moved (s : State) (r : Reg8) (v : Byte) : Put8 s (s.setReg8 r v) (.reg r) v [] false where
  value := ⟨s.setReg8_same r v, fun j hj => by rw [State.setReg8_reg8, if_neg hj]⟩
  log := (List.append_nil _).symm
  frame := s.setReg8_frame r v

/-- A word register takes its value whatever the form of memory. -/
theorem State.setReg16_moved (s : State) (r : Reg16) (v : Word) : Put16 s (s.setReg16 r v) (.reg r) v [] false where
  value := s.setReg16_same r v
  log := (List.append_nil _).symm
  frame := s.setReg16_frame r v

theorem State.setReg8_storesNothing (s : State) (r : Reg8) (v : Byte) :
    StoresNothing s (s.setReg8 r v) { regs := [Reg8.parent r] } :=
  ⟨rfl, rfl, s.setReg8_frame r v⟩

theorem State.setSreg_storesNothing (s : State) (g : SReg) (v : Word) :
    StoresNothing s (s.setSreg g v) { segs := [g] } :=
  ⟨rfl, rfl, s.setSreg_frame g v⟩

theorem State.withFlags_storesNothing {s : State} {f : Flags} {l : List FlagName}
    (h : ∀ n, n ∉ l → f.get n = s.flags.get n) : StoresNothing s (s.withFlags f) { flags := l } :=
  ⟨rfl, rfl, s.withFlags_frame f l h⟩

/-! ### Moves -/

/-- Settles O17: each form is one write of an operand (`State.writeLoc8_moved`, `State.writeLoc16_moved`). -/
theorem movWritesSourceToDestination : Obligations.MovWritesSourceToDestination := by
  unfold Obligations.MovWritesSourceToDestination
  intro p s hwf
  exact ⟨fun e g => ⟨_, rfl, State.writeLoc8_moved hwf _ _⟩, fun e g => ⟨_, rfl, State.writeLoc16_moved hwf _ _⟩,
    fun g e => ⟨_, rfl, s.setReg8_moved _ _⟩, fun g e => ⟨_, rfl, s.setReg16_moved _ _⟩,
    fun e i => ⟨_, rfl, State.writeLoc8_moved hwf _ _⟩, fun e i => ⟨_, rfl, State.writeLoc16_moved hwf _ _⟩,
    fun r i => ⟨_, rfl, s.setReg8_moved _ _⟩, fun r i => ⟨_, rfl, s.setReg16_moved _ _⟩⟩

/-- Settles O18: the direct offset is a memory operand at the address of R324. -/
theorem movMovesSegmentRegistersAndDirectOffsets : Obligations.MovMovesSegmentRegistersAndDirectOffsets := by
  unfold Obligations.MovMovesSegmentRegistersAndDirectOffsets
  intro p e g off s hwf a
  exact ⟨⟨_, rfl, State.writeLoc16_moved hwf _ _⟩,
    ⟨_, rfl, s.setSreg_same g _, s.setSreg_storesNothing g _⟩,
    ⟨_, rfl, s.setReg8_moved .al _⟩, ⟨_, rfl, s.setReg16_moved .ax _⟩,
    ⟨_, rfl, State.writeLoc8_moved hwf (.mem a) _⟩, ⟨_, rfl, State.writeLoc16_moved hwf (.mem a) _⟩⟩

/-! ### Exchange and no-operation -/

/-- A word register written after a change is one more in its footprint. -/
theorem Frame.setReg16 {s t : State} {w : Footprint} (h : Frame w s t) (r : Reg16) (v : Word) :
    Frame { w with regs := r :: w.regs } s (t.setReg16 r v) :=
  (h.trans (t.setReg16_frame r v)).mono (by constructor <;> simp [Footprint.both, or_comm])

theorem Loc.ne_of_reg_ne {ρ : Type} {r g : ρ} (h : Loc.reg r ≠ .reg g) : r ≠ g := mt (congrArg Loc.reg) h

/-- A word operand keeps the word written to it when a register that it is not is written next. -/
theorem Wrote16.setReg16 {s t : State} {d : Loc Reg16} {v : Word} (h : Wrote16 s t d v) {g : Reg16} (x : Word)
    (hd : d ≠ .reg g) : Wrote16 s (t.setReg16 g x) d v := by
  cases d with
  | reg r =>
    rw [Wrote16, State.setReg16_reg16, if_neg (Loc.ne_of_reg_ne hd)]
    exact h
  | mem a => exact h

/-- A byte operand's write leaves the byte registers that it is not. -/
theorem State.writeLoc8_reg8_of_ne (s : State) {d : Loc Reg8} (v : Byte) {j : Reg8} (hd : d ≠ .reg j) :
    (s.writeLoc8 d v).reg8 j = s.reg8 j := by
  cases d with
  | reg r => exact (s.setReg8_reg8 r j v).trans (if_neg (Loc.ne_of_reg_ne hd).symm)
  | mem a => rfl

/-- The word registers swap, one with itself too. -/
theorem State.setReg16_setReg16_swap (s : State) (r g : Reg16) :
    ((s.setReg16 r (s.reg16 g)).setReg16 g (s.reg16 r)).reg16 r = s.reg16 g := by
  rw [State.setReg16_reg16]
  split
  next h => rw [h]
  next => exact s.setReg16_same r _

/-- Settles O19: the write of E (`State.writeLoc8_spec`, `State.writeLoc16_spec`), then of G, which undoes the first only
where both are one register. -/
theorem xchgSwapsOperandsAndNopChangesNothing : Obligations.XchgSwapsOperandsAndNopChangesNothing := by
  unfold Obligations.XchgSwapsOperandsAndNopChangesNothing
  intro p s hwf
  refine ⟨fun e g => ⟨_, rfl, ?_⟩, fun e g => ⟨_, rfl, ?_⟩, fun r => ⟨_, rfl, ?_⟩, rfl, _, rfl, rfl, rfl, Frame.refl s⟩
  · obtain ⟨hw, hlog, hframe⟩ := s.writeLoc8_spec (s.loc p e) (s.reg8 g) hwf
    refine ⟨State.setReg8_same _ g _, ?_, fun j hj he => ?_, hlog, hframe.setReg16 _ _⟩
    · generalize s.loc p e = d at hw
      intro hd
      cases d with
      | reg r => exact (State.setReg8_reg8 _ g r _).trans ((if_neg (Loc.ne_of_reg_ne hd)).trans hw.1)
      | mem a => exact hw
    · rw [State.setReg8_reg8, if_neg hj, s.writeLoc8_reg8_of_ne _ he]
  · obtain ⟨hw, hlog, hframe⟩ := s.writeLoc16_spec (s.loc p e) (s.reg16 g) hwf
    exact ⟨State.setReg16_same _ g _, hw.setReg16 _, hlog, hframe.setReg16 _ _⟩
  · exact ⟨s.setReg16_setReg16_swap .ax r, State.setReg16_same _ r _,
      (s.setReg16_storesNothing .ax _).trans (State.setReg16_storesNothing _ r _)⟩

/-! ### Address loads and translation -/

/-- Settles O20: the far pointer's two words are those of the state before (`State.farPtr`), written to two registers. -/
theorem leaLdsAndLesLoadAddresses : Obligations.LeaLdsAndLesLoadAddresses := by
  unfold Obligations.LeaLdsAndLesLoadAddresses
  intro p g m s seg off sel
  exact ⟨⟨_, rfl, s.setReg16_same g _, s.setReg16_storesNothing g _⟩,
    ⟨_, rfl, s.setReg16_same g off, State.setSreg_same _ .ds sel,
      (s.setReg16_storesNothing g off).trans (State.setSreg_storesNothing _ .ds sel)⟩,
    ⟨_, rfl, s.setReg16_same g off, State.setSreg_same _ .es sel,
      (s.setReg16_storesNothing g off).trans (State.setSreg_storesNothing _ .es sel)⟩⟩

/-- The table offset of XLAT, modulo 2^16 (42_data_transfer.md R335). -/
theorem add_setWidth_toNat (w : Word) (b : Byte) : (w + b.setWidth 16).toNat = (w.toNat + b.toNat) % 2 ^ 16 := by
  rw [BitVec.toNat_add, BitVec.toNat_setWidth_of_le (by decide)]

/-- Settles O21: the offset is given by its number (`add_setWidth_toNat`). -/
theorem xlatReadsTableByte : Obligations.XlatReadsTableByte := by
  unfold Obligations.XlatReadsTableByte
  intro p s off hoff
  obtain rfl := BitVec.eq_of_toNat_eq (hoff.trans (add_setWidth_toNat _ _).symm)
  exact ⟨rfl, _, rfl, s.setReg8_moved .al _⟩

/-! ### Stack -/

theorem State.pushValue_of_ne {s : State} {r : Reg16} (h : r ≠ .sp) : s.pushValue r = s.reg16 r := if_neg h

theorem State.pushValue_sp_new {s : State} (h : s.params.pushSp = .new) : s.pushValue .sp = s.reg16 .sp - 2 := by
  rw [State.pushValue, if_pos rfl, State.pushSpValue, h]

theorem State.pushValue_sp_old {s : State} (h : s.params.pushSp = .old) : s.pushValue .sp = s.reg16 .sp := by
  rw [State.pushValue, if_pos rfl, State.pushSpValue, h]

/-- Both encodings of a push of a word register push the value that R340 and R342 give it. -/
theorem pushRw_and_pushRm_completes {s : State} (hwf : s.mem.wf = true) (p : List Pfx) {r : Reg16} {v : Word}
    (hv : s.pushValue r = v) :
    Completes (.pushRw p r) s (fun t => Pushed s t v [] false) ∧
      Completes (.pushRm p (.reg r)) s (fun t => Pushed s t v [] false) := by
  subst hv
  exact ⟨⟨_, rfl, s.push16_pushed _ hwf⟩, ⟨_, rfl, s.push16_pushed _ hwf⟩⟩

/-- Settles O22: each form is a push (`State.push16_pushed`) of its operand's value. -/
theorem pushStoresOperandAndLowersStackPointer : Obligations.PushStoresOperandAndLowersStackPointer := by
  unfold Obligations.PushStoresOperandAndLowersStackPointer
  intro p s hwf
  exact ⟨fun r hr => pushRw_and_pushRm_completes hwf p (State.pushValue_of_ne hr),
    fun h => pushRw_and_pushRm_completes hwf p (State.pushValue_sp_new h),
    fun h => pushRw_and_pushRm_completes hwf p (State.pushValue_sp_old h),
    fun g => ⟨_, rfl, s.push16_pushed _ hwf⟩, fun m => ⟨_, rfl, s.push16_pushed _ hwf⟩⟩

theorem stackWord_zero (s : State) : stackWord s 0 = s.top16 := by
  rw [stackWord, State.top16, Nat.mul_zero, BitVec.add_zero]

theorem State.drop16_sp (s : State) : s.drop16.reg16 .sp = s.reg16 .sp + 2 := s.setReg16_same .sp _

/-- A word register that a place is not is outside its footprint. -/
theorem Loc.notMem_regs16 {d : Loc Reg16} {r : Reg16} (hd : d ≠ .reg r) : r ∉ d.regs16 := by
  cases d with
  | reg k => exact mt List.mem_singleton.1 (Loc.ne_of_reg_ne hd).symm
  | mem a => exact List.not_mem_nil

/-- SP moves before the write, and memory does not: what the operand holds is told from the state before the pop. -/
theorem Wrote16.of_drop16 {s t : State} {d : Loc Reg16} {v : Word} (h : Wrote16 s.drop16 t d v) : Wrote16 s t d v := by
  cases d <;> exact h

/-- Settles O23: SP moves past the word (`State.drop16_sp`), then the destination is written, which may be SP. -/
theorem popLoadsOperandAndRaisesStackPointer : Obligations.PopLoadsOperandAndRaisesStackPointer := by
  unfold Obligations.PopLoadsOperandAndRaisesStackPointer
  intro p s hwf
  rw [stackWord_zero]
  refine ⟨fun r => ⟨_, rfl, State.setReg16_same _ r _, fun hr => ?_,
      s.drop16_storesNothing.trans (State.setReg16_storesNothing _ r _)⟩,
    fun g => ⟨_, rfl, State.setSreg_same _ g _, s.drop16_sp,
      s.drop16_storesNothing.trans (State.setSreg_storesNothing _ g _)⟩,
    fun e => ⟨_, rfl, ?_⟩⟩
  · rw [State.setReg16_reg16, if_neg hr.symm, State.drop16_sp]
  · obtain ⟨hw, hlog, hframe⟩ := s.drop16.writeLoc16_spec (s.loc p e) s.top16 hwf
    refine ⟨hw.of_drop16, fun hd => ?_, hlog, s.drop16_frame.trans hframe⟩
    rw [hframe.regs .sp (Loc.notMem_regs16 hd), State.drop16_sp]

/-! ### Flag transfers -/

/-- Settles O24: PUSHF is a push of the image, POPF a pop and then a write of the nine flags. -/
theorem pushfAndPopfMoveTheFlagsImage : Obligations.PushfAndPopfMoveTheFlagsImage := by
  unfold Obligations.PushfAndPopfMoveTheFlagsImage
  intro p s hwf
  rw [stackWord_zero]
  exact ⟨⟨rfl, _, rfl, s.push16_pushed _ hwf⟩, rfl, _, rfl, rfl, s.drop16_sp,
    s.drop16_storesNothing.trans (State.withFlags_storesNothing fun n hn => absurd (mem_allFlags n) hn)⟩

/-- Settles O25: AH is the image's low byte, bit by bit; SAHF writes its five flags and leaves the others
(`State.withFlags_loadLow_flagsKept`). -/
theorem lahfAndSahfMoveFiveFlags : Obligations.LahfAndSahfMoveFiveFlags := by
  unfold Obligations.LahfAndSahfMoveFiveFlags
  intro p s
  refine ⟨⟨rfl, _, rfl, fun k hk => ?_, ?_, s.setReg8_storesNothing .ah _⟩,
    rfl, _, rfl, rfl, rfl, rfl, rfl, rfl, State.withFlags_storesNothing (s.withFlags_loadLow_flagsKept _)⟩
  · rw [State.setReg8_same, loByte_bit, decide_eq_true hk, Bool.true_and, State.flagsImage]
  · rw [State.setReg8_reg8, if_neg (by decide)]

/-! ### Ports -/

theorem State.afterPortIn_frame (s : State) (port : Word) (v : Datum) :
    Frame { draws := true } s (s.afterPortIn port v) :=
  (s.record_frame _).trans (State.withDraws_frame _ _)

/-- Settles O26: at each width `State.inAcc` and `State.outAcc` are one access of the port, whatever gives its number. -/
theorem portInputLoadsFreeValueAndOutputOnlyRecords : Obligations.PortInputLoadsFreeValueAndOutputOnlyRecords := by
  unfold Obligations.PortInputLoadsFreeValueAndOutputOnlyRecords
  intro p port s inBytes inWord out
  have hbyte (n : Word) : inBytes n (s.inAcc .byte n) :=
    ⟨State.setReg8_same _ .al _, (State.setReg8_reg8 _ .al .ah _).trans (if_neg (by decide)), rfl, rfl,
      (s.afterPortIn_frame n _).trans (State.setReg8_frame _ .al _)⟩
  have hword (n : Word) : inWord n (s.inAcc .word n) :=
    ⟨State.setReg16_same _ .ax _, rfl, rfl, (s.afterPortIn_frame n _).trans (State.setReg16_frame _ .ax _)⟩
  have hout (n : Word) (v : Datum) : out n v (s.portOut n v) := ⟨rfl, s.record_frame _⟩
  exact ⟨⟨_, rfl, hbyte _⟩, ⟨_, rfl, hword _⟩, ⟨_, rfl, hbyte _⟩, ⟨_, rfl, hword _⟩,
    ⟨_, rfl, hout _ _⟩, ⟨_, rfl, hout _ _⟩, ⟨_, rfl, hout _ _⟩, ⟨_, rfl, hout _ _⟩⟩

end Sys2Proof.Machine
end

section
/-! O28 to O32, O34 and O35 (43_control_transfer.md R370 to R393): the control transfers. A target is IP plus a
displacement (`RelativeTo`), a word of an operand or words of the stack; each operation that finds or saves one is told
once as what it leaves, and an instruction is one of them or two in a row. -/

namespace Sys2Proof.Claims

open Sys2Proof.Machine

/-- What stores nothing stores nothing in a larger footprint without bytes either. -/
theorem StoresNothing.mono {s t : State} {w w' : Footprint} (h : StoresNothing s t w) (l : w.Le w')
    (hb : w'.bytes = []) : StoresNothing s t w' :=
  ⟨h.log, hb, h.frame.mono l⟩

theorem StoresNothing.refl (s : State) : StoresNothing s s {} := ⟨rfl, rfl, Frame.refl s⟩

end Sys2Proof.Claims

namespace Sys2Proof.Machine

open Sys2Proof.Claims

/-! ### Relative targets -/

theorem relativeTo_add_toNat (start x : Word) : RelativeTo start x.toNat (start + x) := by
  rw [RelativeTo, BitVec.toNat_add]
  omega

/-- The sign extension of a displacement is its signed value modulo 2^16 (30_encoding.md R167). -/
theorem relativeTo_add_sext16 (start : Word) (d : Byte) : RelativeTo start d.toInt (start + sext16 d) :=
  add_sext16_toNat start d (Nat.mod_eq_of_lt start.isLt).symm

theorem State.withIp_ipOnly (s : State) (v : Word) : IpOnly s (s.withIp v) := ⟨rfl, rfl, s.withIp_frame v⟩

/-! ### Conditional jumps -/

/-- A short transfer that is taken just when `taken` holds (43_control_transfer.md R370, R372). -/
structure JumpsWhen (taken : Prop) (d : Byte) (s t : State) : Prop where
  jumps : taken → RelativeTo s.ip d.toInt t.ip
  stays : ¬taken → t.ip = s.ip
  only : IpOnly s t

theorem State.jumpIf_jumpsWhen (s : State) {c : Bool} {taken : Prop} (h : c = true ↔ taken) (d : Byte) :
    JumpsWhen taken d s (s.jumpIf c d) := by
  cases c with
  | false =>
    have hn : ¬taken := fun ht => nomatch h.2 ht
    exact ⟨fun ht => absurd ht hn, fun _ => rfl, (StoresNothing.refl s).mono (by constructor <;> simp) rfl⟩
  | true => exact ⟨fun _ => relativeTo_add_sext16 s.ip d, fun hn => absurd (h.1 rfl) hn, s.withIp_ipOnly _⟩

/-- A row of the table of conditional jumps is the jump on condition `c` of the flags. -/
structure JumpsOn (row : (List Pfx → Byte → Instr) × Byte × (Flags → Prop)) (c : Flags → Bool) : Prop where
  encoded : ∀ p d, EncodedAs (row.1 p d) p [row.2.1, d] := by intros; rfl
  answers : ∀ p d s, exec (row.1 p d) s = .next (s.jumpIf (c s.flags) d) := by intros; rfl
  condition : ∀ f, c f = true ↔ row.2.2 f

/-- The sixteen rows are eight conditions, each followed by its negation (43_control_transfer.md R371). -/
theorem jccTable_jumpsOn : ∀ row ∈ jccTable, ∃ c, JumpsOn row c := by
  simp only [jccTable, List.forall_mem_cons]
  exact ⟨⟨condO, { condition := by simp [condO] }⟩, ⟨(!condO ·), { condition := by simp [condO] }⟩,
    ⟨condB, { condition := by simp [condB] }⟩, ⟨(!condB ·), { condition := by simp [condB] }⟩,
    ⟨condZ, { condition := by simp [condZ] }⟩, ⟨(!condZ ·), { condition := by simp [condZ] }⟩,
    ⟨condBe, { condition := by simp [condBe] }⟩, ⟨(!condBe ·), { condition := by simp [condBe] }⟩,
    ⟨condS, { condition := by simp [condS] }⟩, ⟨(!condS ·), { condition := by simp [condS] }⟩,
    ⟨condP, { condition := by simp [condP] }⟩, ⟨(!condP ·), { condition := by simp [condP] }⟩,
    ⟨condL, { condition := by simp [condL] }⟩, ⟨(!condL ·), { condition := by simp [condL] }⟩,
    ⟨condLe, { condition := by simp [condLe] }⟩, ⟨(!condLe ·), { condition := by simp [condLe] }⟩,
    List.forall_mem_nil _⟩

/-- Settles O28: each row is one `State.jumpIf` on its condition (`jccTable_jumpsOn`). -/
theorem conditionalJumpsFollowTheirFlagConditions : Obligations.ConditionalJumpsFollowTheirFlagConditions := by
  unfold Obligations.ConditionalJumpsFollowTheirFlagConditions
  intro row hrow p d s
  obtain ⟨c, encoded, answers, condition⟩ := jccTable_jumpsOn row hrow
  obtain ⟨jumps, stays, only⟩ := s.jumpIf_jumpsWhen (condition s.flags) d
  exact ⟨encoded p d, _, answers p d s, jumps, stays, only⟩

/-! ### Jumps -/

theorem State.jumpFar_storesNothing (s : State) (off sel : Word) :
    StoresNothing s (s.jumpFar off sel) { segs := [.cs], ip := true } :=
  (s.withIp_ipOnly off).trans (State.setSreg_storesNothing _ .cs sel)

theorem State.jumpFar_cs (s : State) (off sel : Word) : (s.jumpFar off sel).sreg .cs = sel :=
  State.setSreg_same _ .cs sel

/-- Settles O29: each form writes IP (`State.withIp_ipOnly`), a far one CS too (`State.jumpFar_storesNothing`). -/
theorem jumpsSetIpAndFarJumpsSetCs : Obligations.JumpsSetIpAndFarJumpsSetCs := by
  unfold Obligations.JumpsSetIpAndFarJumpsSetCs
  intro p s
  exact ⟨fun d => ⟨rfl, _, rfl, relativeTo_add_sext16 s.ip d, s.withIp_ipOnly _⟩,
    fun d => ⟨rfl, _, rfl, relativeTo_add_toNat s.ip d, s.withIp_ipOnly _⟩,
    fun off sel => ⟨_, rfl, rfl, s.jumpFar_cs off sel, s.jumpFar_storesNothing off sel⟩,
    fun e => ⟨_, rfl, rfl, s.withIp_ipOnly _⟩,
    fun m => ⟨_, rfl, rfl, s.jumpFar_cs _ _, s.jumpFar_storesNothing _ _⟩⟩

/-! ### Loops -/

/-- CX one lower, then a short transfer just when `taken` holds (43_control_transfer.md R378 to R380). -/
structure LoopsWhen (taken : Prop) (d : Byte) (s t : State) : Prop where
  count : ((t.reg16 .cx).toNat : Int) = ((s.reg16 .cx).toNat - 1 : Int) % 2 ^ 16
  jumps : taken → RelativeTo s.ip d.toInt t.ip
  stays : ¬taken → t.ip = s.ip
  only : StoresNothing s t { regs := [.cx], ip := true }

theorem sub_one_toNat (x : Word) : ((x - 1).toNat : Int) = ((x.toNat : Int) - 1) % 2 ^ 16 :=
  (sub_toNat_borrow_false x 1 (.inr rfl)).trans (by simp)

/-- The count runs out at one (43_control_transfer.md R378). -/
theorem sub_one_ne_zero_iff (x : Word) : (x - 1 != 0) = true ↔ x.toNat ≠ 1 := by
  rw [bne_iff_ne, Ne, sub_eq_zero, ← BitVec.toNat_inj]
  rfl

theorem State.loopIf_loopsWhen (s : State) {c : Bool} {taken : Prop}
    (h : (s.reg16 .cx).toNat ≠ 1 ∧ c = true ↔ taken) (d : Byte) : LoopsWhen taken d s (s.loopIf c d) := by
  have hc : (s.reg16 .cx - 1 != 0 && c) = true ↔ taken := by
    rw [Bool.and_eq_true, sub_one_ne_zero_iff, h]
  obtain ⟨jumps, stays, only⟩ := (s.setReg16 .cx (s.reg16 .cx - 1)).jumpIf_jumpsWhen hc d
  refine ⟨?_, jumps, stays, (s.setReg16_storesNothing .cx _).trans only⟩
  rw [State.loopIf, only.frame.regs .cx List.not_mem_nil, State.setReg16_same, sub_one_toNat]

/-- Settles O30: the loops are `State.loopIf` on their condition, JCXZ is `State.jumpIf` on CX = 0. -/
theorem loopsCountInCxAndJcxzTestsIt : Obligations.LoopsCountInCxAndJcxzTestsIt := by
  unfold Obligations.LoopsCountInCxAndJcxzTestsIt
  intro p d s loops
  have hloop {c : Bool} {taken : Prop} (h : (s.reg16 .cx).toNat ≠ 1 ∧ c = true ↔ taken) :
      loops taken (s.loopIf c d) := by
    obtain ⟨count, jumps, stays, only⟩ := s.loopIf_loopsWhen h d
    exact ⟨count, jumps, stays, only⟩
  have hcx : (s.reg16 .cx == 0) = true ↔ (s.reg16 .cx).toNat = 0 := by
    rw [beq_iff_eq, ← BitVec.toNat_inj]
    rfl
  obtain ⟨jumps, stays, only⟩ := s.jumpIf_jumpsWhen hcx d
  exact ⟨⟨rfl, _, rfl, hloop (and_iff_left rfl)⟩, ⟨rfl, _, rfl, hloop Iff.rfl⟩,
    ⟨rfl, _, rfl, hloop (and_congr_right' (Bool.not_eq_true' _).to_iff)⟩, rfl, _, rfl, jumps, stays, only⟩

/-! ### Returns -/

theorem State.popIp_sp (s : State) : s.popIp.reg16 .sp = s.reg16 .sp + 2 := s.drop16_sp

theorem State.popIp_storesNothing (s : State) : StoresNothing s s.popIp { regs := [.sp], ip := true } :=
  s.drop16_storesNothing.trans (State.withIp_ipOnly _ _)

theorem State.popIp_ip (s : State) : s.popIp.ip = stackWord s 0 := (stackWord_zero s).symm

/-- The second pop reads one word up from the first. -/
theorem State.popIp_top16 (s : State) : s.popIp.top16 = stackWord s 1 := by
  rw [State.top16, State.popIp_sp]
  rfl

theorem State.popFar_ip (s : State) : s.popFar.ip = stackWord s 0 := s.popIp_ip

theorem State.popFar_cs (s : State) : s.popFar.sreg .cs = stackWord s 1 :=
  (State.setSreg_same _ .cs _).trans s.popIp_top16

theorem State.popFar_sp (s : State) : s.popFar.reg16 .sp = s.reg16 .sp + 4 := by
  have h : s.popFar.reg16 .sp = s.popIp.reg16 .sp + 2 := s.popIp.drop16_sp
  rw [h, State.popIp_sp, BitVec.add_assoc]
  rfl

theorem State.popFar_storesNothing (s : State) :
    StoresNothing s s.popFar { regs := [.sp], segs := [.cs], ip := true } :=
  ((s.popIp_storesNothing.trans s.popIp.drop16_storesNothing).trans (State.setSreg_storesNothing _ .cs _)).mono
    (by constructor <;> simp [Footprint.both]) rfl

theorem State.releaseStack_sp (s : State) (i : Word) : (s.releaseStack i).reg16 .sp = s.reg16 .sp + i :=
  s.setReg16_same .sp _

/-- The release moves SP alone, which the pops before it moved already. -/
theorem State.releaseStack_storesNothing {s t : State} {w : Footprint} (h : StoresNothing s t w) (hsp : .sp ∈ w.regs)
    (i : Word) : StoresNothing s (t.releaseStack i) w :=
  (h.trans (t.setReg16_storesNothing .sp _)).mono (by constructor <;> simp [Footprint.both, or_imp, hsp]) h.bytes

/-- Settles O32: one pop or two (`State.popIp`, `State.popFar`), then the release. -/
theorem returnsPopTransferAndRelease : Obligations.ReturnsPopTransferAndRelease := by
  unfold Obligations.ReturnsPopTransferAndRelease
  intro p i s
  refine ⟨⟨rfl, _, rfl, s.popIp_ip, ?_, s.popIp_storesNothing⟩,
    ⟨rfl, _, rfl, s.popIp_ip, ?_, State.releaseStack_storesNothing s.popIp_storesNothing (by decide) i⟩,
    ⟨rfl, _, rfl, s.popFar_ip, s.popFar_cs, ?_, s.popFar_storesNothing⟩,
    ⟨rfl, _, rfl, s.popFar_ip, s.popFar_cs, ?_,
      State.releaseStack_storesNothing s.popFar_storesNothing (by decide) i⟩⟩
  · rw [State.popIp_sp, BitVec.toNat_add]
    rfl
  · rw [State.releaseStack_sp, State.popIp_sp]
    simp
  · rw [State.popFar_sp, BitVec.toNat_add]
    rfl
  · rw [State.releaseStack_sp, State.popFar_sp]
    simp

/-- The third pop reads two words up from the first. -/
theorem State.popFar_top16 (s : State) : s.popFar.top16 = stackWord s 2 := by
  have hss : s.popFar.sreg .ss = s.sreg .ss := s.popFar_storesNothing.frame.segs .ss (by decide)
  rw [State.top16, State.popFar_sp, hss]
  rfl

/-- The return from an interrupt is a far return and a third pop (43_control_transfer.md R393). -/
theorem State.interruptReturn_eq (s : State) :
    s.interruptReturn = s.popFar.drop16.withFlags (Flags.restore s.popFar.top16) := rfl

/-- Settles O35: IRET is RETF (`State.popFar`), then POPF. -/
theorem iretPopsIpCsAndFlags : Obligations.IretPopsIpCsAndFlags := by
  unfold Obligations.IretPopsIpCsAndFlags
  intro p s
  refine ⟨rfl, s.interruptReturn, rfl, ?_⟩
  rw [State.interruptReturn_eq, State.popFar_top16]
  refine ⟨s.popFar_ip, s.popFar_cs, rfl, ?_,
    ((s.popFar_storesNothing.trans s.popFar.drop16_storesNothing).trans
      (State.withFlags_storesNothing fun n hn => absurd (mem_allFlags n) hn)).mono
      (by constructor <;> simp [Footprint.both]) rfl⟩
  have h : s.popFar.drop16.reg16 .sp = s.reg16 .sp + 6 := by
    rw [State.drop16_sp, State.popFar_sp, BitVec.add_assoc]
    rfl
  exact (congrArg BitVec.toNat h).trans (BitVec.toNat_add _ _)

/-! ### Words stored one after the other -/

/-- Words of one segment at offsets at least two apart share no byte (20_memory.md R80, R84). -/
theorem linear_words_disjoint (seg : Word) {x y : Word} (h2 : 2 ≤ (x - y).toNat) (h : (x - y).toNat < 0xFFFF) :
    [linear seg x, linear seg x + 1].Disjoint [linear seg y, linear seg y + 1] := by
  have hx := x.isLt
  have hy := y.isLt
  rw [BitVec.toNat_sub] at h2 h
  have ne {i j : Nat} (hi : i < 2) (hj : j < 2) :
      linear seg x + BitVec.ofNat 20 i ≠ linear seg y + BitVec.ofNat 20 j :=
    linear_ne seg x y i j (by omega)
  have ne00 := ne (i := 0) (j := 0) (by decide) (by decide)
  have ne01 := ne (i := 0) (j := 1) (by decide) (by decide)
  have ne10 := ne (i := 1) (j := 0) (by decide) (by decide)
  have ne11 := ne (i := 1) (j := 1) (by decide) (by decide)
  simp only [BitVec.add_zero] at ne00 ne01 ne10 ne11
  rw [List.disjoint_iff_ne]
  simp [ne00, ne01, ne10, ne11]

/-- The words of two pushes in a row share no byte. -/
theorem State.pushAddr_disjoint_pushAddr2 (s : State) :
    [s.pushAddr, s.pushAddr + 1].Disjoint [pushAddr2 s, pushAddr2 s + 1] := by
  have h : s.reg16 .sp - 2 - (s.reg16 .sp - 4) = 2 := by bv_omega
  exact linear_words_disjoint _ (by rw [h]; decide) (by rw [h]; decide)

theorem State.pushAddr_disjoint_pushAddr3 (s : State) :
    [s.pushAddr, s.pushAddr + 1].Disjoint [pushAddr3 s, pushAddr3 s + 1] := by
  have h : s.reg16 .sp - 2 - (s.reg16 .sp - 6) = 4 := by bv_omega
  exact linear_words_disjoint _ (by rw [h]; decide) (by rw [h]; decide)

/-- A word stays as it was written while its bytes are not written again. -/
theorem Wrote16.trans_frame {s t u : State} {a : Addr} {v : Word} {w : Footprint} (h : Wrote16 s t (.mem a) v)
    (k : Frame w t u) (hd : [a, a + 1].Disjoint w.bytes) : Wrote16 s u (.mem a) v := by
  obtain ⟨hlo, hhi⟩ := h
  exact ⟨(k.bytes a (hd (by simp))).trans hlo, (k.bytes (a + 1) (hd (by simp))).trans hhi⟩

/-- What stood at a word is told from any state since which its bytes were not written. -/
theorem Frame.trans_wrote16 {s t u : State} {a : Addr} {v : Word} {w : Footprint} (k : Frame w s t)
    (h : Wrote16 t u (.mem a) v) (hd : [a, a + 1].Disjoint w.bytes) : Wrote16 s u (.mem a) v := by
  obtain ⟨hlo, hhi⟩ := h
  rw [k.bytes a (hd (by simp))] at hlo
  rw [k.bytes (a + 1) (hd (by simp))] at hhi
  exact ⟨hlo, hhi⟩

/-! ### Calls -/

theorem State.push16_sp (s : State) (v : Word) : (s.push16 v).reg16 .sp = s.reg16 .sp - 2 := s.setReg16_same .sp _

theorem State.push16_pushAddr (s : State) (v : Word) : (s.push16 v).pushAddr = pushAddr2 s := by
  rw [State.pushAddr, State.push16_sp, BitVec.sub_sub]
  rfl

theorem State.push16_pushAddr2 (s : State) (v : Word) : pushAddr2 (s.push16 v) = pushAddr3 s := by
  rw [pushAddr2, State.push16_sp, BitVec.sub_sub]
  rfl

/-- A near call is a push of IP, then a write of it (43_control_transfer.md R382, R384). -/
theorem State.push16_withIp_pushed (s : State) (v x : Word) (h : s.mem.wf = true) :
    Pushed s ((s.push16 v).withIp x) v [] true := by
  obtain ⟨sp, word, log, frame⟩ := s.push16_pushed v h
  exact ⟨sp, word, log, (frame.trans (State.withIp_frame _ x)).mono (by constructor <;> simp [Footprint.both])⟩

/-- The two pushes of a far call: the second word leaves the first (43_control_transfer.md R383, R385). -/
theorem State.pushFarReturn_pushedFar (s : State) (h : s.mem.wf = true) : PushedFar s s.pushFarReturn := by
  obtain ⟨_, word1, _, frame1⟩ := s.push16_pushed (s.sreg .cs) h
  obtain ⟨sp2, word2, log2, frame2⟩ := (s.push16 (s.sreg .cs)).push16_pushed s.ip (s.push16_wf _ h)
  rw [State.push16_pushAddr] at word2 log2 frame2
  refine ⟨?_, word1.trans_frame frame2 s.pushAddr_disjoint_pushAddr2,
    frame1.trans_wrote16 word2 s.pushAddr_disjoint_pushAddr2.symm, log2.trans (List.append_assoc _ _ _),
    (frame1.trans frame2).mono (by constructor <;> simp [Footprint.both])⟩
  rw [State.pushFarReturn, sp2, State.push16_sp, BitVec.sub_sub]
  rfl

/-- The far transfer after the pushes moves CS and IP alone. -/
theorem State.pushFarReturn_jumpFar_pushedFar (s : State) (off sel : Word) (h : s.mem.wf = true) :
    PushedFar s (s.pushFarReturn.jumpFar off sel) := by
  obtain ⟨sp, first, second, log, frame⟩ := s.pushFarReturn_pushedFar h
  exact ⟨sp, first, second, log, (frame.trans (State.jumpFar_storesNothing _ off sel).frame).mono
    (by constructor <;> simp [Footprint.both])⟩

/-- Settles O31: a near call is one push, a far one two (`State.pushFarReturn_jumpFar_pushedFar`); the target's words
are those of the state before. -/
theorem callsPushReturnAddressAndTransfer : Obligations.CallsPushReturnAddressAndTransfer := by
  unfold Obligations.CallsPushReturnAddressAndTransfer
  intro p s hwf
  exact ⟨fun d => ⟨_, rfl, relativeTo_add_toNat s.ip d, s.push16_withIp_pushed _ _ hwf⟩,
    fun e => ⟨_, rfl, rfl, s.push16_withIp_pushed _ _ hwf⟩,
    fun off sel => ⟨_, rfl, rfl, State.jumpFar_cs _ off sel, s.pushFarReturn_jumpFar_pushedFar off sel hwf⟩,
    fun m => ⟨_, rfl, rfl, State.jumpFar_cs _ _ _, s.pushFarReturn_jumpFar_pushedFar _ _ hwf⟩⟩

/-! ### Software interrupts -/

theorem vectorOffset_toNat (n : Byte) : (vectorOffset n).toNat = 4 * n.toNat := by
  have hn := n.isLt
  simp only [vectorOffset, BitVec.toNat_mul, BitVec.toNat_setWidth, BitVec.ofNat_eq_ofNat, BitVec.toNat_ofNat]
  omega

theorem vectorAddr_toNat (n : Byte) : (vectorAddr n).toNat = 4 * n.toNat := by
  have hn := n.isLt
  rw [vectorAddr, BitVec.toNat_ofNat]
  omega

theorem vectorAddr_eq (n : Byte) : vectorAddr n = linear 0 (vectorOffset n) := by
  have hn := n.isLt
  apply BitVec.eq_of_toNat_eq
  simp only [linear_toNat, vectorAddr_toNat, vectorOffset_toNat, BitVec.ofNat_eq_ofNat, BitVec.toNat_ofNat]
  omega

/-- The segment word of a vector; offsets of the table do not wrap (60_exceptions.md R487). -/
theorem vectorAddr_add_two (n : Byte) : vectorAddr n + 2 = linear 0 (vectorOffset n + 2) := by
  have hn := n.isLt
  apply BitVec.eq_of_toNat_eq
  simp only [linear_toNat, BitVec.toNat_add, vectorAddr_toNat, vectorOffset_toNat, BitVec.ofNat_eq_ofNat,
    BitVec.toNat_ofNat]
  omega

/-- Interrupt entry up to its far call: the flags image pushed, then IF and TF cleared (60_exceptions.md R490). -/
def State.flagsPushed (s : State) : State :=
  (s.push16 s.flagsImage).withFlags { s.flags with ifl := false, tf := false }

/-- Interrupt entry is a far call of the vector once the flags are pushed; the vector is read after the pushes
(60_exceptions.md R490). -/
theorem State.interrupt_eq (s : State) (n : Byte) (src : IntSource) :
    s.interrupt n src =
      ((s.flagsPushed.pushFarReturn.jumpFar (s.interruptPushes.read16 (vectorAddr n))
        (s.interruptPushes.read16 (vectorAddr n + 2))).withHalted false).record (.intTaken n src) := by
  rw [vectorAddr_add_two, vectorAddr_eq]
  rfl

/-- Of the flags IF and TF alone are cleared, whatever the vector (`State.interrupt_flagsKept`). -/
theorem State.flagsPushed_frame (s : State) (h : s.mem.wf = true) :
    Frame { regs := [.sp], flags := [.ifl, .tf], bytes := [s.pushAddr, s.pushAddr + 1] } s s.flagsPushed :=
  ((s.push16_frame _ h).trans (State.withFlags_frame _ _ [.ifl, .tf] (s.interrupt_flagsKept 0 .software))).mono
    (by constructor <;> simp [Footprint.both])

theorem State.flagsPushed_wrote (s : State) (h : s.mem.wf = true) :
    Wrote16 s s.flagsPushed (.mem s.pushAddr) s.flagsImage :=
  s.push16_wrote s.flagsImage h

theorem State.flagsPushed_log (s : State) :
    s.flagsPushed.log = s.log ++ (Loc.mem s.pushAddr).events16 s.flagsImage := rfl

theorem State.flagsPushed_sp (s : State) : s.flagsPushed.reg16 .sp = s.reg16 .sp - 2 := s.push16_sp s.flagsImage

theorem State.flagsPushed_pushAddr (s : State) : s.flagsPushed.pushAddr = pushAddr2 s := s.push16_pushAddr s.flagsImage

theorem State.flagsPushed_pushAddr2 (s : State) : pushAddr2 s.flagsPushed = pushAddr3 s :=
  s.push16_pushAddr2 s.flagsImage

/-- Everything interrupt entry does: the word of `State.flagsPushed`, then those of a far call, each clear of the others
(60_exceptions.md R490). -/
theorem State.interrupt_entered (s : State) (n : Byte) (src : IntSource) (h : s.mem.wf = true) :
    Entered s (s.interrupt n src) n src := by
  rw [State.interrupt_eq]
  have hflags := s.flagsPushed_frame h
  obtain ⟨sp, first, second, log, frame⟩ := s.flagsPushed.pushFarReturn_jumpFar_pushedFar
    (s.interruptPushes.read16 (vectorAddr n)) (s.interruptPushes.read16 (vectorAddr n + 2)) (s.push16_wf _ h)
  rw [State.flagsPushed_pushAddr] at first log frame
  rw [State.flagsPushed_pushAddr2] at second log frame
  have flagsWord := (s.flagsPushed_wrote h).trans_frame frame
    (List.disjoint_append_right.2 ⟨s.pushAddr_disjoint_pushAddr2, s.pushAddr_disjoint_pushAddr3⟩)
  constructor
  case sp =>
    refine sp.trans ?_
    rw [State.flagsPushed_sp, BitVec.sub_sub]
    rfl
  case flagsWord => exact flagsWord
  case csWord => exact hflags.trans_wrote16 first s.pushAddr_disjoint_pushAddr2.symm
  case ipWord => exact hflags.trans_wrote16 second s.pushAddr_disjoint_pushAddr3.symm
  case ifl | tf | halted | ip => rfl
  case cs => exact State.jumpFar_cs _ _ _
  case log =>
    rw [State.record_log, State.withHalted_log, log, State.flagsPushed_log]
    simp only [List.append_assoc]
    rfl
  case frame =>
    exact (hflags.trans (frame.trans ((State.withHalted_frame _ false).trans (State.record_frame _ _)))).mono
      (by constructor <;> simp [Footprint.both])

/-- Settles O34: each is `State.interrupt` (`State.interrupt_entered`), INTO only when OF is set. -/
theorem softwareInterruptsEnterTheirVector : Obligations.SoftwareInterruptsEnterTheirVector := by
  unfold Obligations.SoftwareInterruptsEnterTheirVector
  intro p n s hwf
  refine ⟨⟨rfl, _, rfl, s.interrupt_entered n _ hwf⟩, ⟨rfl, _, rfl, s.interrupt_entered 3 _ hwf⟩, rfl, _, rfl,
    fun hof => ?_, fun hof => ?_⟩
  · rw [if_pos hof]
    exact s.interrupt_entered 4 _ hwf
  · rw [if_neg (Bool.eq_false_iff.1 hof)]
    exact StoresNothing.refl s

end Sys2Proof.Machine
end

section
/-! O37 (44_processor_control.md R420 to R428): the processor-control instructions. Each writes CF, IF, DF or the halted
bit, and what such a write leaves is told once for any value. -/

namespace Sys2Proof.Machine

open Sys2Proof.Claims

/-- A write of the flags register that keeps every flag but `n` is a write of flag `n`. -/
theorem State.withFlags_flagSet {s : State} {f : Flags} {n : FlagName} (kept : FlagsKeptBut [n] s (s.withFlags f)) :
    FlagSet s (s.withFlags f) n (f.get n) :=
  ⟨rfl, State.withFlags_storesNothing kept⟩

theorem State.withHalted_storesNothing (s : State) (b : Bool) : StoresNothing s (s.withHalted b) { halted := true } :=
  ⟨rfl, rfl, s.withHalted_frame b⟩

/-- Settles O37: each flag instruction is one write of CF, IF or DF (`State.withFlags_flagSet`), HLT one of the halted
bit. -/
theorem processorControlWritesOneFlagOrHalts : Obligations.ProcessorControlWritesOneFlagOrHalts := by
  unfold Obligations.ProcessorControlWritesOneFlagOrHalts
  intro p s
  have hcf (b : Bool) : FlagSet s (s.withFlags { s.flags with cf := b }) .cf b :=
    State.withFlags_flagSet (s.withFlags_cf_flagsKept b)
  have hifl (b : Bool) : FlagSet s (s.withFlags { s.flags with ifl := b }) .ifl b :=
    State.withFlags_flagSet (s.withFlags_ifl_flagsKept b)
  have hdf (b : Bool) : FlagSet s (s.withFlags { s.flags with df := b }) .df b :=
    State.withFlags_flagSet (s.withFlags_df_flagsKept b)
  exact ⟨⟨rfl, _, rfl, hcf false⟩, ⟨rfl, _, rfl, hcf true⟩, ⟨rfl, _, rfl, hcf (!s.flags.cf)⟩,
    ⟨rfl, _, rfl, hifl false⟩, ⟨rfl, _, rfl, hifl true⟩, ⟨rfl, _, rfl, hdf false⟩, ⟨rfl, _, rfl, hdf true⟩,
    rfl, _, rfl, rfl, s.withHalted_storesNothing true⟩

end Sys2Proof.Machine
end

section
/-! O40, O41, O43, O44 (48_pipeline.md R450 to R459): the tick. A step outside a StepWait is `State.startTick` at stage
Fetching, which is told here by an equation per branch, and so is the fetch and decode that it ends in. -/

namespace Sys2Proof.Machine

open Sys2Proof.Claims

/-! ### The checks before the fetch -/

theorem State.withStage_of_stage {s : State} {g : Stage} (h : s.stage = g) : s.withStage g = s := by
  subst h
  rfl

theorem State.isWaiting_of_fetching {s : State} (h : s.stage = .fetching) : s.isWaiting = false := by
  unfold State.isWaiting
  rw [h]

theorem step_of_not_waiting {s : State} (h : s.isWaiting = false) : step s = (s.withStage .fetching).startTick := by
  unfold step tick
  unfold State.isWaiting at h
  split at h
  · cases h
  all_goals next hs => rw [hs]

theorem step_of_fetching {s : State} (h : s.stage = .fetching) : step s = s.startTick := by
  rw [step_of_not_waiting (State.isWaiting_of_fetching h), State.withStage_of_stage h]

/-- No maskable request is seen with IF = 0 or none pending (48_pipeline.md R452). -/
theorem State.maskableRequest_none {s : State} (h : s.flags.ifl = false ∨ s.intr = none) :
    s.maskableRequest = none := by
  unfold State.maskableRequest
  rcases h with h | h
  · rw [h]
    rfl
  · rw [h, ite_self]

theorem State.maskableRequest_some {s : State} {n : Byte} (hf : s.flags.ifl = true) (hn : s.intr = some n) :
    s.maskableRequest = some n := (if_pos hf).trans hn

theorem State.startTick_stopped {s : State} (h : s.stopRequested = true) : s.startTick = .next s := if_pos h

section NotStopped

variable {s : State} (hstop : s.stopRequested = false)

include hstop

theorem State.startTick_nmi (hn : s.nmiLatched = true) : s.startTick = .next s.takeNmi := by
  rw [State.startTick, hstop, hn]
  rfl

theorem State.startTick_intr (hn : s.nmiLatched = false) {n : Byte} (hr : s.maskableRequest = some n) :
    s.startTick = .next (s.takeIntr n) := by
  rw [State.startTick, hstop, hn, hr]
  rfl

theorem State.startTick_halted (hn : s.nmiLatched = false) (hr : s.maskableRequest = none) (hh : s.halted = true) :
    s.startTick = .next s := by
  rw [State.startTick, hstop, hn, hr, hh]
  rfl

theorem State.startTick_trap (hn : s.nmiLatched = false) (hr : s.maskableRequest = none) (hh : s.halted = false)
    (ht : s.flags.tf = true) (hm : s.params.tfMode = .refuse) :
    s.startTick = .refused (.tfTrapUnmodelled s.insAddr) := by
  rw [State.startTick, hstop, hn, hr, hh, ht, hm]
  rfl

theorem State.startTick_fetch (hn : s.nmiLatched = false) (hr : s.maskableRequest = none) (hh : s.halted = false)
    (ht : s.flags.tf = false ∨ s.params.tfMode ≠ .refuse) : s.startTick = s.fetchDecode := by
  have htrap : (s.flags.tf && s.params.tfMode == .refuse) = false := by
    rcases ht with ht | ht <;> simp [ht]
  rw [State.startTick, hstop, hn, hr, hh, htrap]
  rfl

end NotStopped

theorem step_of_reachesFetch {s : State} (h : ReachesFetch s) : step s = (s.withStage .fetching).fetchDecode := by
  obtain ⟨hwait, hstop, hnmi, hreq, hhalt, htrap⟩ := h
  rw [step_of_not_waiting hwait]
  exact State.startTick_fetch hstop hnmi (State.maskableRequest_none hreq) hhalt htrap

/-! ### Fetch and decode -/

section FetchDecode

variable {s : State} {i : Instr}

theorem State.fetchDecode_underflow (h : decode s.fetchedBytes = none) :
    s.fetchDecode = .fault (.pqUnderflow s.insAddr) := by
  rw [State.fetchDecode_eq, h]

theorem State.fetchDecode_refused (h : decode s.fetchedBytes = some i) (hr : i.isRefused = true) :
    s.fetchDecode = .refused (.notAdmitted i.opcode i.ext s.insAddr) := by
  rw [State.fetchDecode_eq, h]
  exact State.afterDecode_refused _ _ _ hr

variable (hd : s.dq.idle = true) (h : decode s.fetchedBytes = some i) (hr : i.isRefused = false)

include hd h hr

/-- With step mode on the tick comes to its StepWait (48_pipeline.md R457). -/
theorem State.fetchDecode_wait (hm : s.stepMode = true) :
    s.fetchDecode = .next ((s.atExecute s.dq.passed i.len .decoding).enterWait (s.decodedRecord i) s.pq) := by
  rw [State.fetchDecode_eq, h]
  exact (State.afterDecode_idle ((s.withPq s.fetchedBytes).withStage .decoding) s.pq i hr hd).trans (if_pos hm)

/-- With step mode off the tick executes what it decoded (48_pipeline.md R458). -/
theorem State.fetchDecode_execute (hm : s.stepMode = false) :
    s.fetchDecode = (s.atExecute s.dq.passed i.len .decoding).execute i := by
  rw [State.fetchDecode_eq, h]
  exact (State.afterDecode_idle ((s.withPq s.fetchedBytes).withStage .decoding) s.pq i hr hd).trans
    (if_neg (Bool.eq_false_iff.1 hm))

end FetchDecode

/-! ### The obligations' terms are the model's -/

theorem fetched_eq (s : State) : fetched s = s.fetchedBytes := rfl

theorem State.atExecute_eq_advanced (s : State) (i : Instr) (g : Stage) :
    s.atExecute s.dq.passed i.len g = advanced s i g := rfl

theorem State.finish_eq (s : State) (tf0 : Bool) :
    s.finish tf0 = (if tf0 = true ∧ s.params.tfMode = .int1 then s.interrupt 1 .trap else s).withStage .fetching := by
  simp only [State.finish, Bool.and_eq_true, beq_iff_eq]

/-- The execute stage and the end of the tick (48_pipeline.md R450, R458). -/
theorem State.execute_eq_tickEnd (s : State) (i : Instr) :
    s.execute i = tickEnd s.flags.tf (exec i (s.withStage .executing)) := by
  unfold State.execute tickEnd
  cases exec i (s.withStage .executing) with
  | next t => exact congrArg _ (t.finish_eq _)
  | fault e | refused e => rfl

/-! ### The statements -/

/-- Settles O40: the step is the fetch and decode (`step_of_reachesFetch`), which executes what it decoded. -/
theorem stepRunsTheDecodedInstruction : Obligations.StepRunsTheDecodedInstruction := by
  unfold Obligations.StepRunsTheDecodedInstruction
  intro s i hf hd hm hi hr
  rw [fetched_eq] at hi
  rw [← State.atExecute_eq_advanced]
  have hrun : (s.withStage .fetching).fetchDecode = (s.atExecute s.dq.passed i.len .decoding).execute i :=
    State.fetchDecode_execute (s := s.withStage .fetching) hd hi hr hm
  exact (step_of_reachesFetch hf).trans (hrun.trans (State.execute_eq_tickEnd _ i))

/-- Settles O41: the two ways in which the decode stops the tick. -/
theorem stepStopsOnUnderflowAndRefusedEncodings : Obligations.StepStopsOnUnderflowAndRefusedEncodings := by
  unfold Obligations.StepStopsOnUnderflowAndRefusedEncodings
  intro s hf
  rw [step_of_reachesFetch hf, fetched_eq]
  exact ⟨State.fetchDecode_underflow, fun _ => State.fetchDecode_refused⟩

/-- The result of a tick from Fetching that does not come to a StepWait (48_pipeline.md R459). -/
theorem tickResult_of_fetching {s t : State} (hs : s.stage = .fetching) (h : step s = .next t)
    (ht : t.stage = .fetching) :
    tickResult s =
      if s.stopRequested then .stopped
      else if s.nmiLatched || s.maskableRequest.isSome then .goesOn
      else if s.halted then .halted
      else .goesOn := by
  have h' : tick s = .next t := h
  unfold tickResult
  simp only [h', hs, ht]

/-- Settles O43: the first and the fourth branch of the tick. -/
theorem stoppedAndHaltedTicksChangeNothing : Obligations.StoppedAndHaltedTicksChangeNothing := by
  unfold Obligations.StoppedAndHaltedTicksChangeNothing
  refine fun s hs => ⟨fun hstop => ?_, fun hstop hhalt hnmi hreq => ?_⟩
  · have h : step s = .next s := (step_of_fetching hs).trans (State.startTick_stopped hstop)
    exact ⟨h, (tickResult_of_fetching hs h hs).trans (if_pos hstop)⟩
  · have hnone := State.maskableRequest_none hreq
    have h : step s = .next s := (step_of_fetching hs).trans (State.startTick_halted hstop hnmi hnone hhalt)
    refine ⟨h, ?_⟩
    rw [tickResult_of_fetching hs h hs, hstop, hnmi, hnone, hhalt]
    rfl

/-- Settles O44: the second and the third branch of the tick, each an interrupt entry (`State.interrupt_entered`). -/
theorem nmiThenMaskableRequestIsTakenBeforeFetch : Obligations.NmiThenMaskableRequestIsTakenBeforeFetch := by
  unfold Obligations.NmiThenMaskableRequestIsTakenBeforeFetch
  refine fun s hwf hs hstop => ⟨fun hn => ⟨s.takeNmi, ?_, ?_, ?_⟩, fun n hn hf hi => ⟨s.takeIntr n, ?_, ?_⟩⟩
  · rw [step_of_fetching hs, State.startTick_nmi hstop hn]
  · exact (State.interrupt_kept (s.withNmi false) 2 .nmi).nmiLatched
  · exact State.interrupt_entered _ 2 .nmi hwf
  · rw [step_of_fetching hs, State.startTick_intr hstop hn (State.maskableRequest_some hf hi)]
  · exact State.interrupt_entered s n .intr hwf

end Sys2Proof.Machine
end

section
/-! O60 (48_pipeline.md R470): what each act of the host writes, and that the invariant does not speak of it. -/

namespace Sys2Proof.Machine

theorem State.hostAct_resume_waiting {s : State} {d : Decoded} {pq0 : List Byte} {b : Bool}
    (h : s.stage = .stepWait d pq0 b) : s.hostAct .resume = some (s.withStage (.stepWait d pq0 true)) := by
  unfold State.hostAct
  rw [h]

/-- A resume outside a StepWait is discarded (48_pipeline.md R457). -/
theorem State.hostAct_resume_not_waiting {s : State} (h : s.isWaiting = false) : s.hostAct .resume = some s := by
  unfold State.isWaiting at h
  unfold State.hostAct
  split at h
  · cases h
  all_goals rfl

/-- The acts that the block takes between ticks only. -/
theorem State.hostAct_waiting {s : State} (h : s.isWaiting = true) :
    s.hostAct .assertNmi = none ∧ (∀ a, s.hostAct (.answerIntr a) = none) ∧ s.hostAct .toggleStep = none :=
  ⟨if_pos h, fun _ => if_pos h, if_pos h⟩

theorem State.hostAct_not_waiting {s : State} (h : s.isWaiting = false) :
    s.hostAct .assertNmi = some (s.withNmi true) ∧ (∀ a, s.hostAct (.answerIntr a) = some (s.withIntr a)) ∧
      s.hostAct .toggleStep = some (s.withStepMode (!s.stepMode)) :=
  have hn := Bool.eq_false_iff.1 h
  ⟨if_neg hn, fun _ => if_neg hn, if_neg hn⟩

theorem State.isWaiting_iff {s : State} : s.isWaiting = true ↔ ∃ d pq0 b, s.stage = .stepWait d pq0 b := by
  unfold State.isWaiting
  cases s.stage <;> simp

/-- A resumed StepWait is as right as it was. -/
theorem State.Inv.resumed {s : State} (hi : s.Inv) {d : Decoded} {pq0 : List Byte} {b : Bool}
    (hs : s.stage = .stepWait d pq0 b) : (s.withStage (.stepWait d pq0 true)).Inv := by
  obtain ⟨hmem, hpq, hdq, hparams, hstage⟩ := hi
  rw [State.stageOk, hs] at hstage
  exact ⟨hmem, hpq, hdq, hparams, hstage⟩

theorem State.Inv.hostAct {s t : State} {a : HostAct} (hi : s.Inv) (h : s.hostAct a = some t) : t.Inv := by
  cases a with
  | assertNmi | answerIntr x | toggleStep =>
    cases (Option.ite_none_left_eq_some.1 h).2
    exact ⟨hi.mem, hi.pq, hi.dq, hi.params, hi.stage⟩
  | resume =>
    cases hw : s.isWaiting with
    | false =>
      cases (State.hostAct_resume_not_waiting hw).symm.trans h
      exact hi
    | true =>
      obtain ⟨d, pq0, b, hs⟩ := State.isWaiting_iff.1 hw
      cases (State.hostAct_resume_waiting hs).symm.trans h
      exact hi.resumed hs
  | requestStop =>
    cases h
    exact ⟨hi.mem, hi.pq, hi.dq, hi.params, hi.stage⟩

/-- Settles O60: the acts outside a StepWait, those in one, and the invariant act by act (`State.Inv.hostAct`). -/
theorem hostActsKeepTheInvariant : Obligations.HostActsKeepTheInvariant := by
  unfold Obligations.HostActsKeepTheInvariant
  refine ⟨fun s hw => ?_, fun s d pq b hs => ?_, fun _ => rfl, fun s t a hi h => hi.hostAct h⟩
  · obtain ⟨hnmi, hintr, htoggle⟩ := State.hostAct_not_waiting hw
    exact ⟨hnmi, hintr, htoggle, State.hostAct_resume_not_waiting hw⟩
  · obtain ⟨hnmi, hintr, htoggle⟩ := State.hostAct_waiting (State.isWaiting_iff.2 ⟨d, pq, b, hs⟩)
    exact ⟨hnmi, hintr, htoggle, State.hostAct_resume_waiting hs⟩

end Sys2Proof.Machine
end

section
/-! O42 (48_pipeline.md R454, R457): single step. The tick is two steps, with the StepWait that `State.enterWait` makes
between them. -/

namespace Sys2Proof.Machine

open Sys2Proof.Claims

theorem step_of_resumed {s : State} {d : Decoded} {pq0 : List Byte} (h : s.stage = .stepWait d pq0 true) :
    step s = s.execute d.instr := by
  unfold step tick
  rw [h]

theorem step_of_waiting {s : State} {d : Decoded} {pq0 : List Byte} (h : s.stage = .stepWait d pq0 false) :
    step s = .next s := by
  unfold step tick
  rw [h]

/-- What a fault after a StepWait leaves does not depend on whether the wait was resumed (48_pipeline.md R454). -/
theorem State.stopState_resumed {s : State} {d : Decoded} {pq0 : List Byte} {b : Bool}
    (h : s.stage = .stepWait d pq0 b) : (s.withStage (.stepWait d pq0 true)).stopState = s.stopState := by
  unfold State.stopState
  rw [h]
  rfl

/-- Settles O42: the StepWait that the first step comes to (`State.fetchDecode_wait`), the second step after the resume,
and what that one leaves when it stops (`State.enterWait_stopState`). -/
theorem stepModeWaitsUntilResumedThenExecutes : Obligations.StepModeWaitsUntilResumedThenExecutes := by
  unfold Obligations.StepModeWaitsUntilResumedThenExecutes
  refine ⟨fun s i hf hd hm hi hr => ?_, fun s => State.hostAct_resume_not_waiting⟩
  intro d w
  rw [fetched_eq] at hi
  have hw : (s.atExecute s.dq.passed i.len .decoding).enterWait (s.decodedRecord i) s.pq = w := rfl
  have hstage : w.stage = .stepWait d s.pq false := rfl
  refine ⟨?_, step_of_waiting hstage, _, State.hostAct_resume_waiting hstage, ?_, ?_⟩
  · rw [step_of_reachesFetch hf]
    exact State.fetchDecode_wait (s := s.withStage .fetching) hd hi hr hm
  · exact (step_of_resumed rfl).trans (State.execute_eq_tickEnd _ i)
  · rw [State.stopState_resumed hstage, ← hw, State.enterWait_stopState s i hd]
    rfl

end Sys2Proof.Machine
end

section
/-! O52 (48_pipeline.md R454, 60_exceptions.md R482 to R485, 20_memory.md R117): how a step from a state of the invariant
can stop. Its decoded queue is idle, so the pass through it does not fault, and what waits in a StepWait is no refused
encoding. -/

namespace Sys2Proof.Machine

/-- Everything a step from a state of the invariant can answer. -/
inductive StepAnswer (s : State) : Result → Prop where
  | next (t : State) : StepAnswer s (.next t)
  | underflow (hs : s.stage = .fetching) : StepAnswer s (.fault (.pqUnderflow s.insAddr))
  | undefined (a : Addr) (bs : List Byte) (hm : s.params.unknownMode = .fault)
      (ha : s.stage = .fetching → a = s.insAddr) : StepAnswer s (.fault (.undefinedInstruction a bs))
  | notAdmitted (hs : s.stage = .fetching) (op : Byte) (ext : Option Oct) :
      StepAnswer s (.refused (.notAdmitted op ext s.insAddr))
  | trap (hs : s.stage = .fetching) (ht : s.flags.tf = true) (hm : s.params.tfMode = .refuse) :
      StepAnswer s (.refused (.tfTrapUnmodelled s.insAddr))

/-- The execute stage, of an instruction that is not refused, at a state with the parameters of `s`. -/
theorem State.execute_answer {s u : State} {i : Instr} (hr : i.isRefused = false) (hp : u.params = s.params)
    (ha : s.stage = .fetching → u.startAddr i.len = s.insAddr) : StepAnswer s (u.execute i) := by
  rcases u.execute_cases i hr with ⟨t, _, _, h⟩ | ⟨hm, h⟩
  · exact h ▸ .next _
  · exact h ▸ .undefined _ _ (hp ▸ hm) ha

theorem State.fetchDecode_answer {s : State} (hs : s.stage = .fetching) (hd : s.dq.idle = true) :
    StepAnswer s s.fetchDecode := by
  cases h : decode s.fetchedBytes with
  | none => exact State.fetchDecode_underflow h ▸ .underflow hs
  | some i =>
    cases hr : i.isRefused with
    | true => exact State.fetchDecode_refused h hr ▸ .notAdmitted hs _ _
    | false =>
      cases hm : s.stepMode with
      | true => exact State.fetchDecode_wait hd h hr hm ▸ .next _
      | false =>
        rw [State.fetchDecode_execute hd h hr hm]
        exact State.execute_answer hr rfl fun _ => s.atExecute_startAddr s.dq.passed i.len .decoding

theorem State.startTick_answer {s : State} (hs : s.stage = .fetching) (hd : s.dq.idle = true) :
    StepAnswer s s.startTick := by
  cases hstop : s.stopRequested with
  | true => exact State.startTick_stopped hstop ▸ .next _
  | false =>
  cases hn : s.nmiLatched with
  | true => exact State.startTick_nmi hstop hn ▸ .next _
  | false =>
  cases hr : s.maskableRequest with
  | some n => exact State.startTick_intr hstop hn hr ▸ .next _
  | none =>
  cases hh : s.halted with
  | true => exact State.startTick_halted hstop hn hr hh ▸ .next _
  | false =>
  by_cases ht : s.flags.tf = true ∧ s.params.tfMode = .refuse
  · exact State.startTick_trap hstop hn hr hh ht.1 ht.2 ▸ .trap hs ht.1 ht.2
  · rw [not_and_or, Bool.not_eq_true] at ht
    exact State.startTick_fetch hstop hn hr hh ht ▸ State.fetchDecode_answer hs hd

/-- The instruction of a StepWait is not refused (48_pipeline.md R454). -/
theorem State.Inv.waiting_not_refused {s : State} (hi : s.Inv) {d : Decoded} {pq0 : List Byte} {b : Bool}
    (hs : s.stage = .stepWait d pq0 b) : d.instr.isRefused = false := by
  have h := hi.stage
  simp only [State.stageOk, hs, Bool.and_eq_true, Bool.not_eq_true'] at h
  obtain ⟨⟨⟨_, hr⟩, _⟩, _⟩ := h
  exact hr

theorem State.Inv.step_answer {s : State} (hi : s.Inv) : StepAnswer s (step s) := by
  cases hs : s.stage with
  | fetching => exact step_of_fetching hs ▸ State.startTick_answer hs hi.dq
  | stepWait d pq0 resumed =>
    cases resumed with
    | false => exact step_of_waiting hs ▸ .next s
    | true =>
      rw [step_of_resumed hs]
      exact State.execute_answer (hi.waiting_not_refused hs) rfl fun h => by rw [hs] at h; cases h
  | decoding | executing =>
    have h := hi.stage
    rw [State.stageOk, hs] at h
    cases h

/-- Settles O52: by the cases of what a step can answer (`StepAnswer`). -/
theorem onlyReachableFaultsAndRefusalsStopAStep : Obligations.OnlyReachableFaultsAndRefusalsStopAStep := by
  unfold Obligations.OnlyReachableFaultsAndRefusalsStopAStep
  intro s hi
  have a := hi.step_answer
  refine ⟨fun r h => ?_, fun r h => ?_⟩
  · rw [h] at a
    cases a with
    | underflow hs => exact .inl ⟨rfl, hs⟩
    | undefined a bs hm ha => exact .inr ⟨a, bs, rfl, hm, ha⟩
  · rw [h] at a
    cases a with
    | notAdmitted hs op ext => exact ⟨hs, .inl ⟨op, ext, rfl⟩⟩
    | trap hs ht hm => exact ⟨hs, .inr ⟨rfl, ht, hm⟩⟩

end Sys2Proof.Machine
end

section
/-! O46 (48_pipeline.md R454, R460, R470, R472): the run driver. A turn of its loop returns exactly where `ReturnsAt`
says, and otherwise steps on; a run is unfolded by its first turn, so one induction over the acts tells all of it. The
run without acts is the hosted run whose lists of acts are empty. -/

namespace Sys2Proof.Machine

open Sys2Proof.Claims

/-! ### One turn -/

theorem returnsAt_unique {u t t' : State} {r r' : TickResult} (h : ReturnsAt u r t) (k : ReturnsAt u r' t') :
    r = r' ∧ t = t' := by
  obtain ⟨rfl, hleft⟩ := h
  obtain ⟨rfl, kleft⟩ := k
  refine ⟨rfl, ?_⟩
  rcases hleft with ⟨hs, rfl⟩ | ⟨hs, rfl⟩ <;> rcases kleft with ⟨ks, rfl⟩ | ⟨ks, rfl⟩
  · rfl
  · simp [hs] at ks
  · simp [ks] at hs
  · rfl

theorem State.turn_returnsAt {u t : State} {r : TickResult} (h : u.turn = .returns r t) : ReturnsAt u r t := by
  have a := u.turn_turned
  rw [h] at a
  cases a with
  | stopped hr => exact ⟨hr, .inl ⟨rfl, rfl⟩⟩
  | fault e hr => exact ⟨hr, .inr ⟨.inl ⟨e, rfl⟩, rfl⟩⟩
  | refused e hr => exact ⟨hr, .inr ⟨.inr ⟨e, rfl⟩, rfl⟩⟩

theorem State.turn_goesOn {u t : State} (h : u.turn = .goesOn t) : GoesOn u ∧ step u = .next t := by
  have a := u.turn_turned
  rw [h] at a
  cases a with
  | goesOn _ hn hs hf hr =>
    refine ⟨?_, hn⟩
    rintro r v ⟨rfl, ⟨h, -⟩ | ⟨⟨e, h⟩ | ⟨e, h⟩, -⟩⟩
    · exact hs h
    · exact hf e h
    · exact hr e h

theorem State.turn_returns_iff {u t : State} {r : TickResult} : u.turn = .returns r t ↔ ReturnsAt u r t := by
  refine ⟨State.turn_returnsAt, fun h => ?_⟩
  cases hu : u.turn with
  | returns r' t' =>
    obtain ⟨rfl, rfl⟩ := returnsAt_unique h (State.turn_returnsAt hu)
    rfl
  | goesOn v => exact absurd h ((State.turn_goesOn hu).1 r t)

theorem State.turn_goesOn_iff {u t : State} : u.turn = .goesOn t ↔ GoesOn u ∧ step u = .next t := by
  refine ⟨State.turn_goesOn, fun ⟨hon, hn⟩ => ?_⟩
  cases hu : u.turn with
  | returns r v => exact absurd (State.turn_returnsAt hu) (hon r v)
  | goesOn v =>
    cases (State.turn_goesOn hu).2.symm.trans hn
    rfl

/-! ### Runs with acts of the host -/

theorem hostedTo_nil {s v : State} : HostedTo [] s v ↔ s = v := by
  constructor
  · rintro ⟨⟩
    rfl
  · rintro rfl
    exact .start s

theorem hostedTo_cons {acts : List HostAct} {rest : List (List HostAct)} {s v : State} :
    HostedTo (acts :: rest) s v ↔
      ∃ u t, s.hostActs acts = some u ∧ u.turn = .goesOn t ∧ HostedTo rest t v := by
  constructor
  · rintro (_ | ⟨host, on, next, more⟩)
    exact ⟨_, _, host, State.turn_goesOn_iff.2 ⟨on, next⟩, more⟩
  · rintro ⟨u, t, host, turn, more⟩
    obtain ⟨on, next⟩ := State.turn_goesOn_iff.1 turn
    exact .step host on next more

/-- The run with these acts of the host comes to a state at which it returns. -/
def HostedReturn (sched : List (List HostAct)) (s : State) (r : TickResult) (t : State) : Prop :=
  ∃ before acts after v u, sched = before ++ acts :: after ∧ HostedTo before s v ∧ v.hostActs acts = some u ∧
    ReturnsAt u r t

theorem hostedReturn_nil {s t : State} {r : TickResult} : ¬HostedReturn [] s r t := by
  rintro ⟨before, acts, after, v, u, h, -⟩
  cases before <;> cases h

theorem hostedReturn_cons {acts : List HostAct} {rest : List (List HostAct)} {s t : State} {r : TickResult} :
    HostedReturn (acts :: rest) s r t ↔
      ∃ u, s.hostActs acts = some u ∧
        (u.turn = .returns r t ∨ ∃ v, u.turn = .goesOn v ∧ HostedReturn rest v r t) := by
  constructor
  · rintro ⟨before, acts', after, v, u, hsched, hto, hacts, hret⟩
    cases before with
    | nil =>
      cases hsched
      cases hostedTo_nil.1 hto
      exact ⟨u, hacts, .inl (State.turn_returns_iff.2 hret)⟩
    | cons b bs =>
      cases hsched
      obtain ⟨u', v', host, turn, more⟩ := hostedTo_cons.1 hto
      exact ⟨u', host, .inr ⟨v', turn, bs, acts', after, v, u, rfl, more, hacts, hret⟩⟩
  · rintro ⟨u, host, hret | ⟨v', turn, bs, acts', after, v, u', rfl, more, hacts, hret⟩⟩
    · exact ⟨[], acts, rest, s, u, rfl, .start s, host, State.turn_returns_iff.1 hret⟩
    · exact ⟨acts :: bs, acts', after, v, u', rfl, hostedTo_cons.2 ⟨u, v', host, turn, more⟩, hacts, hret⟩

/-- The run by its first turn. -/
theorem runHosted_cons {acts : List HostAct} {rest : List (List HostAct)} {s : State}
    {x : Option TickResult × State} :
    runHosted (acts :: rest) s = some x ↔
      ∃ u, s.hostActs acts = some u ∧
        ((∃ r t, u.turn = .returns r t ∧ (some r, t) = x) ∨
          ∃ v, u.turn = .goesOn v ∧ runHosted rest v = some x) := by
  rw [runHosted]
  cases s.hostActs acts with
  | none => simp
  | some u => cases h : u.turn <;> simp [h]

theorem runHosted_returns_iff (sched : List (List HostAct)) (s t : State) (r : TickResult) :
    runHosted sched s = some (some r, t) ↔ HostedReturn sched s r t := by
  induction sched generalizing s with
  | nil => simp [runHosted, hostedReturn_nil]
  | cons acts rest ih => simp [runHosted_cons, hostedReturn_cons, ih]

theorem runHosted_goesOn_iff (sched : List (List HostAct)) (s t : State) :
    runHosted sched s = some (none, t) ↔ HostedTo sched s t := by
  induction sched generalizing s with
  | nil => simp [runHosted, hostedTo_nil]
  | cons acts rest ih => simp [runHosted_cons, hostedTo_cons, ih]

/-! ### Runs without acts -/

theorem runHosted_replicate_nil (n : Nat) (s : State) :
    runHosted (List.replicate n []) s = some (runTicks n s) := by
  induction n generalizing s with
  | zero => rfl
  | succ n ih =>
    rw [List.replicate_succ, runHosted, runTicks, State.hostActs]
    cases h : s.turn with
    | returns r t => simp [h]
    | goesOn t => simp [h, ih]

theorem stepsFrom_succ {k : Nat} {s v : State} :
    stepsFrom (k + 1) s = some v ↔ ∃ t, step s = .next t ∧ stepsFrom k t = some v := by
  rw [stepsFrom]
  cases step s <;> simp

/-- The state `k` steps on, with the run going on at each state before it. -/
theorem hostedTo_replicate_nil {k : Nat} {s v : State} :
    HostedTo (List.replicate k []) s v ↔
      stepsFrom k s = some v ∧ ∀ j w, j < k → stepsFrom j s = some w → GoesOn w := by
  induction k generalizing s with
  | zero => simp [hostedTo_nil, stepsFrom]
  | succ k ih =>
    rw [List.replicate_succ, hostedTo_cons]
    constructor
    · rintro ⟨_, t, ⟨⟩, turn, more⟩
      obtain ⟨on, next⟩ := State.turn_goesOn_iff.1 turn
      obtain ⟨hv, hbefore⟩ := ih.1 more
      refine ⟨stepsFrom_succ.2 ⟨t, next, hv⟩, fun j w hj hw => ?_⟩
      cases j with
      | zero => cases hw; exact on
      | succ j =>
        obtain ⟨t', next', hw'⟩ := stepsFrom_succ.1 hw
        cases next.symm.trans next'
        exact hbefore j w (by omega) hw'
    · rintro ⟨hv, hbefore⟩
      obtain ⟨t, next, hv'⟩ := stepsFrom_succ.1 hv
      have on : GoesOn s := hbefore 0 s (by omega) rfl
      refine ⟨s, t, rfl, State.turn_goesOn_iff.2 ⟨on, next⟩, ih.2 ⟨hv', fun j w hj hw => ?_⟩⟩
      exact hbefore (j + 1) w (by omega) (stepsFrom_succ.2 ⟨t, next, hw⟩)

theorem hostedReturn_replicate_nil {n : Nat} {s t : State} {r : TickResult} :
    HostedReturn (List.replicate n []) s r t ↔
      ∃ k u, k < n ∧ HostedTo (List.replicate k []) s u ∧ ReturnsAt u r t := by
  constructor
  · rintro ⟨before, acts, after, v, u, h, hto, hacts, hret⟩
    obtain ⟨hn, hbefore, hrest⟩ := List.append_eq_replicate_iff.1 h.symm
    have hnil : acts = [] := List.eq_of_mem_replicate (hrest ▸ List.mem_cons_self)
    subst hnil
    cases hacts
    rw [List.length_cons] at hn
    exact ⟨before.length, v, by omega, hbefore ▸ hto, hret⟩
  · rintro ⟨k, u, hk, hto, hret⟩
    refine ⟨List.replicate k [], [], List.replicate (n - k - 1) [], u, u, ?_, hto, rfl, hret⟩
    rw [← List.replicate_succ, List.replicate_append_replicate]
    congr 1
    omega

/-- Settles O46: the hosted run by `runHosted_returns_iff` and `runHosted_goesOn_iff`; the run without acts is the one
whose lists of acts are empty. -/
theorem runEndsOnlyAtStopFaultOrRefusal : Obligations.RunEndsOnlyAtStopFaultOrRefusal := by
  unfold Obligations.RunEndsOnlyAtStopFaultOrRefusal
  refine ⟨fun n s t => ?_, fun sched s t => ⟨runHosted_returns_iff sched s t, runHosted_goesOn_iff sched s t⟩,
    runHosted_replicate_nil⟩
  have hrun (x : Option TickResult × State) : runTicks n s = x ↔ runHosted (List.replicate n []) s = some x := by
    rw [runHosted_replicate_nil, Option.some_inj]
  refine ⟨fun r => ?_, ?_⟩
  · simp only [hrun, runHosted_returns_iff, hostedReturn_replicate_nil, hostedTo_replicate_nil, and_assoc]
  · rw [hrun, runHosted_goesOn_iff, hostedTo_replicate_nil]

end Sys2Proof.Machine
end

section
/-! O33, O36, O45 (60_exceptions.md R490, R496, R498): interrupt entry by itself, IRET right after one, and the trap of
TF. The stack of an entered state holds the three words of `Entered` from the top down, which is what IRET pops. -/

namespace Sys2Proof.Machine

/-! ### What a return right after an entry leaves -/

/-- Segment registers with equal reads are equal. -/
theorem SRegs.ext_get {r t : SRegs} (h : ∀ g, r.get g = t.get g) : r = t := by
  cases r
  cases t
  exact (SRegs.mk.injEq ..).mpr ⟨h .es, h .cs, h .ss, h .ds⟩

end Sys2Proof.Machine

namespace Sys2Proof.Claims

open Sys2Proof.Machine

section Entered

variable {s t u : State} {n : Byte} {source : IntSource} (h : Entered s t n source)

include h

/-- A word of the entered state's stack, by its offset from the pointer before: entry leaves SS and lowers SP by six. -/
theorem Entered.stackWord_of_wrote {k : Nat} {x v : Word} (hx : s.reg16 .sp - 6 + BitVec.ofNat 16 (2 * k) = x)
    (hw : Wrote16 s t (.mem (linear (s.sreg .ss) x)) v) (h0 : inRom (linear (s.sreg .ss) x) = false)
    (h1 : inRom (linear (s.sreg .ss) x + 1) = false) : stackWord t k = v := by
  rw [stackWord, h.sp, h.frame.segs .ss (by simp), hx]
  exact hw.read16 h0 h1

variable (k : Frame { regs := [.sp], segs := [.cs], flags := allFlags, ip := true } t u)

include k

/-- Of the segment registers entry and return move CS alone. -/
theorem Entered.returned_sregs (hcs : u.sreg .cs = s.sreg .cs) : u.sregs = s.sregs := by
  refine SRegs.ext_get fun g => ?_
  by_cases hg : g = .cs
  · subst hg
    exact hcs
  · have hg' : g ∉ [SReg.cs] := by simpa using hg
    exact (k.segs g hg').trans (h.frame.segs g hg')

/-- Of the general registers entry and return move SP alone, six down and six up. -/
theorem Entered.returned_regs (hsp : (u.reg16 .sp).toNat = ((t.reg16 .sp).toNat + 6) % 2 ^ 16) :
    u.regs = s.regs := by
  refine Regs.ext_get fun r => ?_
  by_cases hr : r = .sp
  · subst hr
    rw [h.sp] at hsp
    have hback : u.reg16 .sp = s.reg16 .sp := by bv_omega
    exact hback
  · have hr' : r ∉ [Reg16.sp] := by simpa using hr
    exact (k.regs r hr').trans (h.frame.regs r hr')

end Entered

end Sys2Proof.Claims

namespace Sys2Proof.Machine

open Sys2Proof.Claims

/-! ### Entry, and the return right after it -/

/-- Settles O33: `State.interrupt_entered`, which needs nothing of the vector or the source. -/
theorem interruptEntryPushesThreeWordsAndTakesVector : Obligations.InterruptEntryPushesThreeWordsAndTakesVector := by
  unfold Obligations.InterruptEntryPushesThreeWordsAndTakesVector
  exact fun s n source hwf => s.interrupt_entered n source hwf

/-- Settles O36: IRET (`iretPopsIpCsAndFlags`) pops the words that the entry pushed. -/
theorem iretUndoesInterruptEntry : Obligations.IretUndoesInterruptEntry := by
  unfold Obligations.IretUndoesInterruptEntry
  intro p n source s hwf hlegal hwritable
  simp only [List.forall_mem_cons, ← inRom_eq_false_iff] at hwritable
  obtain ⟨f0, f1, c0, c1, i0, i1, -⟩ := hwritable
  have h := s.interrupt_entered n source hwf
  obtain ⟨-, u, hexec, hip, hcs, hflags, hsp, hstores⟩ := iretPopsIpCsAndFlags p (s.interrupt n source)
  have ipWord : stackWord (s.interrupt n source) 0 = s.ip := h.stackWord_of_wrote (by bv_omega) h.ipWord i0 i1
  have csWord : stackWord (s.interrupt n source) 1 = s.sreg .cs := h.stackWord_of_wrote (by bv_omega) h.csWord c0 c1
  have flagsWord : stackWord (s.interrupt n source) 2 = s.flags.image s.params.flagsReserved :=
    h.stackWord_of_wrote (by bv_omega) h.flagsWord f0 f1
  rw [flagsWord, s.flags.restore_image hlegal] at hflags
  exact ⟨u, hexec, hip.trans ipWord, hflags, h.returned_sregs hstores.frame (hcs.trans csWord),
    h.returned_regs hstores.frame hsp⟩

/-! ### The trap flag -/

/-- The stage is no part of what interrupt entry does. -/
theorem State.interrupt_withStage (s : State) (n : Byte) (source : IntSource) (g : Stage) :
    (s.interrupt n source).withStage g = (s.withStage g).interrupt n source := rfl

/-- With TF_MODE = int1 a tick that began with TF = 1 ends in the trap. -/
theorem tickEnd_trap {t : State} (hm : t.params.tfMode = .int1) :
    tickEnd true (.next t) = .next ((t.withStage .fetching).interrupt 1 .trap) := by
  rw [tickEnd, if_pos ⟨rfl, hm⟩, State.interrupt_withStage]

/-- In another mode it ends as the instruction left it. -/
theorem tickEnd_noTrap {t : State} (hm : t.params.tfMode ≠ .int1) (tf0 : Bool) :
    tickEnd tf0 (.next t) = .next (t.withStage .fetching) := by
  rw [tickEnd, if_neg fun e => hm e.2]

/-- Settles O45: before the fetch `State.startTick_trap` refuses; past it the tick is `stepRunsTheDecodedInstruction`,
whose end is `tickEnd_trap` or `tickEnd_noTrap`. -/
theorem trapFlagFollowsItsMode : Obligations.TrapFlagFollowsItsMode := by
  unfold Obligations.TrapFlagFollowsItsMode
  intro s hs hstop hnmi hreq hhalt htf
  refine ⟨fun hm => ?_, fun i t hd hstep hwf hi hr hexec => ?_⟩
  · rw [step_of_fetching hs]
    exact State.startTick_trap hstop hnmi (State.maskableRequest_none hreq) hhalt htf hm
  have hkept : Kept (advanced s i .executing) t := exec_kept hexec
  have hrun (hm : s.params.tfMode ≠ .refuse) : step s = tickEnd true (.next t) := by
    rw [← hexec, ← htf]
    exact stepRunsTheDecodedInstruction s i
      ⟨State.isWaiting_of_fetching hs, hstop, hnmi, hreq, hhalt, .inr hm⟩ hd hstep hi hr
  have hmode : t.params.tfMode = s.params.tfMode := congrArg Params.tfMode hkept.params
  refine ⟨fun hm => ⟨_, ?_, (t.withStage .fetching).interrupt_entered 1 .trap (hkept.wf hwf)⟩, fun hm => ?_⟩
  · rw [hrun (by simp [hm]), tickEnd_trap (hmode.trans hm)]
  · rw [hrun (by simp [hm]), tickEnd_noTrap (by simp [hmode, hm])]
    rfl

end Sys2Proof.Machine
end
